-- ==== Sys2Proof/Word.lean ====
section
/-! DEFINITION. The widths of the block's words (00_scope.md R12, R13). -/

namespace Sys2Proof

/-- A command word, a result word, an RPM value (R12, R58, R101): 32 bits, bit 0 the least significant (R13). -/
abbrev Word := BitVec 32

/-- A format I operand: 24 bits (R12, R60). -/
abbrev Imm := BitVec 24

/-- An RD selector as it stands in the command word: 4 bits (R61). -/
abbrev Selector := BitVec 4

end Sys2Proof
end

