-- ==== Sys2Proof/Syntax.lean ====
section
/-! DEFINITION. The block's commands, one constructor per row of spec/opcode_table.json (30_encoding.md R62), and the
registers RD can name (10_state.md R38). -/

namespace Sys2Proof

/-- A command (R62). -/
inductive Instr where
  /-- No operation (44_control.md R96). -/
  | nop
  /-- Set the desired speed (43_ramp.md R85). -/
  | setd (v : Imm)
  /-- One ramp step now (43_ramp.md R89). -/
  | ramp
  /-- One 10 ms tick of the 50 ms prescaler (43_ramp.md R90). -/
  | tick
  /-- Estimate only (41_estimator.md R74). -/
  | est (p : Imm)
  /-- Push a value into the filter (42_filter.md R80). -/
  | fpush (v : Imm)
  /-- Estimate an interval and filter it (42_filter.md R81). -/
  | sample (p : Imm)
  /-- Read a register (44_control.md R97). Selector 15 is ill-formed (30_encoding.md R66). -/
  | rd (sel : Selector)
  /-- Clear the sticky status bits (44_control.md R99). -/
  | clrst
deriving DecidableEq, Repr

/-- The instruction's mnemonic in spec/opcode_table.json (R62). -/
def Instr.mnemonic : Instr → String
  | .nop => "NOP"
  | .setd _ => "SETD"
  | .ramp => "RAMP"
  | .tick => "TICK"
  | .est _ => "EST"
  | .fpush _ => "FPUSH"
  | .sample _ => "SAMPLE"
  | .rd _ => "RD"
  | .clrst => "CLRST"

/-- A register that RD can read (10_state.md R38). -/
inductive Reg where
  | desired | actual | duty | rpmEst | rpmAvg | fill | widx
  /-- A slot of the history, selectors 7 to 10. -/
  | hist (i : Fin 4)
  | rampTimer | status | paramPpr | paramMaxduty
deriving DecidableEq, Repr

end Sys2Proof
end

