-- ==== Sys2Proof/WellFormed.lean ====
section
/-! DEFINITION. Which instruction terms the block has an encoding for. Operand widths are in the types; the one check
left is RD's reserved selector (30_encoding.md R66). -/

namespace Sys2Proof

/-- The instruction has a legal encoding: RD's selector is not the reserved 15 (R66). -/
def Instr.wellFormed : Instr → Bool
  | .nop => true
  | .setd _ => true
  | .ramp => true
  | .tick => true
  | .est _ => true
  | .fpush _ => true
  | .sample _ => true
  | .rd sel => sel.toNat != 15
  | .clrst => true

end Sys2Proof
end

