-- ==== Sys2Proof/Decode.lean ====
section
/-! DEFINITION. Command words to instructions and back (30_encoding.md R58 to R68). -/

namespace Sys2Proof

/-- Why a word is illegal: the five cases of R64. -/
inductive IllegalWord where
  /-- R64 (a): `RSV ≠ 0`. -/
  | rsvNonZero
  /-- R64 (b): `OPC` is 0x9 to 0xF (R65). -/
  | reservedOpcode
  /-- R64 (c): a format N word with `IMM ≠ 0`. -/
  | operandOnFormatN
  /-- R64 (d): an RD word with `cw[23:4] ≠ 0`. -/
  | rdOperandBits
  /-- R64 (e): an RD word with `SEL = 15` (R66). -/
  | rdSelectorReserved
deriving DecidableEq, Repr

namespace Field

/-- `OPC = cw[31:28]` (R59). -/
def opc (cw : Word) : BitVec 4 := cw.extractLsb' 28 4

/-- `RSV = cw[27:24]` (R59). -/
def rsv (cw : Word) : BitVec 4 := cw.extractLsb' 24 4

/-- `IMM = cw[23:0]` (R59). -/
def imm (cw : Word) : Imm := cw.extractLsb' 0 24

/-- `cw[23:4]`, which must be zero in format S (R59). -/
def mbz (cw : Word) : BitVec 20 := cw.extractLsb' 4 20

/-- `SEL = cw[3:0]` (R61). -/
def sel (cw : Word) : Selector := cw.extractLsb' 0 4

/-- The word `{OPC, 0000, IMM}` (R59, R69). -/
def word (opc : BitVec 4) (imm : Imm) : Word := opc ++ 0#4 ++ imm

end Field

/-- A format N word: legal only with `IMM = 0` (R59, R63). -/
def decodeFormatN (i : Instr) (cw : Word) : Except IllegalWord Instr :=
  if (Field.imm cw).toNat = 0 then .ok i else .error .operandOnFormatN

/-- A format S word (R59, R63, R66). -/
def decodeFormatS (cw : Word) : Except IllegalWord Instr :=
  if (Field.mbz cw).toNat ≠ 0 then .error .rdOperandBits
  else if (Field.sel cw).toNat = 15 then .error .rdSelectorReserved
  else .ok (.rd (Field.sel cw))

/-- Decoding, a total function of the word alone (R63). -/
def decode (cw : Word) : Except IllegalWord Instr :=
  if (Field.rsv cw).toNat ≠ 0 then .error .rsvNonZero
  else
    match (Field.opc cw).toNat with
    | 0 => decodeFormatN .nop cw
    | 1 => .ok (.setd (Field.imm cw))
    | 2 => decodeFormatN .ramp cw
    | 3 => decodeFormatN .tick cw
    | 4 => .ok (.est (Field.imm cw))
    | 5 => .ok (.fpush (Field.imm cw))
    | 6 => .ok (.sample (Field.imm cw))
    | 7 => decodeFormatS cw
    | 8 => decodeFormatN .clrst cw
    | _ => .error .reservedOpcode

/-- The word of an instruction (R59, R62). An ill-formed `rd` gets the illegal word its selector spells. -/
def encode : Instr → Word
  | .nop => Field.word 0x0 0
  | .setd v => Field.word 0x1 v
  | .ramp => Field.word 0x2 0
  | .tick => Field.word 0x3 0
  | .est p => Field.word 0x4 p
  | .fpush v => Field.word 0x5 v
  | .sample p => Field.word 0x6 p
  | .rd sel => Field.word 0x7 (sel.setWidth 24)
  | .clrst => Field.word 0x8 0

/-- A row of the opcode map (R62): a word selects it when `(cw & mask) == match`. -/
structure OpcodeRow where
  mnemonic : String
  matchBits : Word
  mask : Word
deriving DecidableEq, Repr

/-- The word selects the row (R62). -/
def OpcodeRow.selects (r : OpcodeRow) (cw : Word) : Bool := cw &&& r.mask == r.matchBits

/-- The opcode map (R62). -/
def opcodeTable : List OpcodeRow :=
  [ ⟨"NOP", 0x00000000, 0xFFFFFFFF⟩, ⟨"SETD", 0x10000000, 0xFF000000⟩, ⟨"RAMP", 0x20000000, 0xFFFFFFFF⟩,
    ⟨"TICK", 0x30000000, 0xFFFFFFFF⟩, ⟨"EST", 0x40000000, 0xFF000000⟩, ⟨"FPUSH", 0x50000000, 0xFF000000⟩,
    ⟨"SAMPLE", 0x60000000, 0xFF000000⟩, ⟨"RD", 0x70000000, 0xFFFFFFF0⟩, ⟨"CLRST", 0x80000000, 0xFFFFFFFF⟩ ]

/-- The command word whose low `nbits` bits are `w` and whose other bits are zero. Words cross the boundary whole, so there
is no byte order to choose (20_memory.md R47). -/
def wordOfTable (nbits w : Nat) : Word := BitVec.ofNat 32 (w % 2 ^ nbits)

/-- The instruction the decoder reads from a word of spec/opcode_table.json; every command is one 32-bit word (R58). -/
def decodeTableWord (nbits w : Nat) : Option Instr :=
  if nbits ≤ 32 then (decode (wordOfTable nbits w)).toOption else none

end Sys2Proof
end

