-- ==== Sys2Proof/Config.lean ====
section
/-! DEFINITION. What is fixed for the whole life of a block (00_scope.md R6 to R11, R17): the constants the spec
states, and the two parameters it leaves open. -/

namespace Sys2Proof

namespace Config

/-- Capacity of the filter history (R6). -/
abbrev nHist : Nat := 4

/-- The estimator's multiplier (R9). -/
abbrev rpmFactor : Nat := 60

/-- Milliseconds one TICK adds to RAMP_TIMER (R10). -/
abbrev tickMs : Nat := 10

/-- Milliseconds at which RAMP_TIMER fires (R10). -/
abbrev periodMs : Nat := 50

/-- The largest speed, in percent (R11). -/
abbrev maxSpeed : Nat := 100

end Config

/-- A configuration of the block: `cfg.PPR` and `cfg.MAX_DUTY`, each in 1 to 65535 (R7, R8, R17). The upper bound is the
16-bit width. A configuration with a zero cannot be built, which is how the model refuses it (log 2). -/
structure Cfg where
  /-- `cfg.PPR`, pulses per revolution (R7), read as PARAM_PPR (R36). -/
  ppr : BitVec 16
  /-- `cfg.MAX_DUTY`, the actuator's full-scale duty (R8), read as PARAM_MAXDUTY (R37). -/
  maxDuty : BitVec 16
  /-- `PPR ≥ 1` (R7). -/
  ppr_pos : 1 ≤ ppr.toNat
  /-- `MAX_DUTY ≥ 1` (R8). -/
  maxDuty_pos : 1 ≤ maxDuty.toNat
deriving DecidableEq, Repr

/-- The configuration with the given parameters, or `none` where R7 or R8 refuses it. -/
def Cfg.make? (ppr maxDuty : Nat) : Option Cfg :=
  if h : (1 ≤ ppr ∧ ppr ≤ 65535) ∧ (1 ≤ maxDuty ∧ maxDuty ≤ 65535) then
    some
      { ppr := BitVec.ofNat 16 ppr
        maxDuty := BitVec.ofNat 16 maxDuty
        ppr_pos := by rw [BitVec.toNat_ofNat, Nat.mod_eq_of_lt (by omega)]; exact h.1.1
        maxDuty_pos := by rw [BitVec.toNat_ofNat, Nat.mod_eq_of_lt (by omega)]; exact h.2.1 }
  else none

/-- The open value of `cfg.PPR`, less 1: any of the 65535 allowed values, and nothing in Lean can tell which
(R7, 93_implementation_defined.md; log 1). -/
opaque Config.pprLessOne : Fin 65535

/-- The open value of `cfg.MAX_DUTY`, less 1 (R8, 93_implementation_defined.md; log 1). -/
opaque Config.maxDutyLessOne : Fin 65535

/-- The configuration of the block that `State.reset` starts (R17; log 1). -/
def Config.cfg : Cfg where
  ppr := BitVec.ofNat 16 (Config.pprLessOne.val + 1)
  maxDuty := BitVec.ofNat 16 (Config.maxDutyLessOne.val + 1)
  ppr_pos := by
    have h := Config.pprLessOne.isLt
    rw [BitVec.toNat_ofNat, Nat.mod_eq_of_lt (by omega)]; omega
  maxDuty_pos := by
    have h := Config.maxDutyLessOne.isLt
    rw [BitVec.toNat_ofNat, Nat.mod_eq_of_lt (by omega)]; omega

end Sys2Proof
end

