-- ==== Sys2Proof/Machine/State.lean ====
section
/-! DEFINITION. The state of the block (10_state.md, 60_exceptions.md R101, 70_reset_and_hazards.md R127) and what a step
can answer. -/

namespace Sys2Proof.Machine

/-- The result code RCODE (60_exceptions.md R101). The value 3 is never produced, so it has no constructor (log 9). -/
inductive RCode where
  | ok | range | illegal
deriving DecidableEq, Repr

/-- `RCODE[1:0]` (R101). -/
def RCode.bits : RCode → BitVec 2
  | .ok => 0
  | .range => 1
  | .illegal => 2

/-- The block's two error outcomes (60_exceptions.md R103 to R105, R107). -/
inductive BlockError where
  /-- An illegal word (R104). -/
  | illegal
  /-- SETD with an operand above 100 (R105). -/
  | rangeError
deriving DecidableEq, Repr

/-- One input the host presents (10_state.md R18, 70_reset_and_hazards.md R129; log 3). -/
inductive HostInput where
  /-- A command word. -/
  | command (cw : Word)
  /-- A reset, with the command word presented together with it, if any: that command is discarded (R129). -/
  | reset (coincident : Option Word)
deriving DecidableEq, Repr

/-- The block (R19 to R39). Plain data. -/
structure State where
  /-- PARAM_PPR and PARAM_MAXDUTY, read-only (R36, R37). -/
  cfg : Cfg
  /-- DESIRED (R22). -/
  desired : BitVec 7
  /-- ACTUAL (R23). -/
  actual : BitVec 7
  /-- DUTY (R24). -/
  duty : BitVec 16
  /-- RPM_EST (R25). -/
  rpmEst : Word
  /-- RPM_AVG (R26). -/
  rpmAvg : Word
  /-- HIST[0..3] (R27). -/
  hist : Vector Word 4
  /-- WIDX (R28). -/
  widx : BitVec 2
  /-- FILL (R29). -/
  fill : BitVec 3
  /-- RAMP_TIMER (R30). -/
  rampTimer : BitVec 8
  /-- STATUS.RERR (R32). -/
  rerr : Bool
  /-- STATUS.ILL (R33). -/
  ill : Bool
  /-- RCODE (R39, R101). -/
  rcode : RCode
  /-- RDATA (R39, R101). -/
  rdata : Word
  /-- ACT_WE, asserted by a step that ran a ramp step (R39; log 6). -/
  actWe : Bool
  /-- The ActuatorWrite events since the last reset, oldest first (R94; log 5). -/
  events : List (BitVec 16)
  /-- The model's own field: what the host has presented and the block has not taken, oldest first (R54; log 3). -/
  pending : List HostInput
deriving DecidableEq, Repr

/-- DUTY_OUT, always equal to DUTY (R39). -/
def State.dutyOut (s : State) : BitVec 16 := s.duty

/-- The reset state of a block with configuration `c` (R127; log 3, 5 and 6 for the last three fields). -/
def State.resetWith (c : Cfg) : State where
  cfg := c
  desired := 0
  actual := 0
  duty := 0
  rpmEst := 0
  rpmAvg := 0
  hist := #v[0, 0, 0, 0]
  widx := 0
  fill := 0
  rampTimer := 0
  rerr := false
  ill := false
  rcode := .ok
  rdata := 0
  actWe := false
  events := []
  pending := []

/-- The machine right after reset (R127), with the open configuration (log 1). -/
def State.reset : State := State.resetWith Config.cfg

/-- Why the block stops: never. "The block never halts or sticks" (60_exceptions.md R126), so no step raises a fault. -/
inductive Fault
deriving DecidableEq, Repr

/-- Why a step has no meaning. -/
inductive Refusal where
  /-- Raised by an arm of `exec` whose instruction has no meaning yet (safe: the run stops). No arm raises it. -/
  | notModelled (mnemonic : String)
deriving DecidableEq, Repr

/-- What a meaning answers. -/
abbrev Answer := Host.Outcome State Fault Refusal

end Sys2Proof.Machine
end

