-- ==== Sys2Proof/Machine/Flags.lean ====
section
/-! DEFINITION. STATUS, the block's only flag register (10_state.md R31 to R35). -/

namespace Sys2Proof.Machine

/-- STATUS.FULL, computed (R34). -/
def State.full (s : State) : Bool := s.fill.toNat == 4

/-- STATUS.ATTGT, computed (R35). -/
def State.atTarget (s : State) : Bool := s.actual == s.desired

/-- STATUS as a read sees it (R31, 44_control.md R97). -/
def State.statusWord (s : State) : Word :=
  0#28 ++ BitVec.ofBool s.atTarget ++ BitVec.ofBool s.full ++ BitVec.ofBool s.ill ++ BitVec.ofBool s.rerr

/-- Set the sticky bit of an error (R32, R33, 60_exceptions.md R104, R105). -/
def State.setSticky (e : BlockError) (s : State) : State :=
  match e with
  | .illegal => { s with ill := true }
  | .rangeError => { s with rerr := true }

/-- Clear both sticky bits (44_control.md R99). -/
def State.clearSticky (s : State) : State := { s with rerr := false, ill := false }

end Sys2Proof.Machine
end

