-- ==== Sys2Proof/Machine/Operands.lean ====
section
/-! DEFINITION. Operand forms: the format I immediate (30_encoding.md R60) and the RD selector (R61, 10_state.md R38). -/

namespace Sys2Proof.Machine

/-- The operand value of a format I command, `zext_32(cw[23:0])` (R60). -/
def immValue (v : Imm) : Word := v.setWidth 32

/-- The register a selector names; 15 names none (R38, R66). -/
def selectorReg (sel : Selector) : Option Reg :=
  match sel.toNat with
  | 0 => some .desired
  | 1 => some .actual
  | 2 => some .duty
  | 3 => some .rpmEst
  | 4 => some .rpmAvg
  | 5 => some .fill
  | 6 => some .widx
  | 7 => some (.hist 0)
  | 8 => some (.hist 1)
  | 9 => some (.hist 2)
  | 10 => some (.hist 3)
  | 11 => some .rampTimer
  | 12 => some .status
  | 13 => some .paramPpr
  | 14 => some .paramMaxduty
  | _ => none

/-- A register's value, zero-extended to 32 bits (R38, R49, 44_control.md R97). -/
def State.readReg (s : State) : Reg → Word
  | .desired => s.desired.setWidth 32
  | .actual => s.actual.setWidth 32
  | .duty => s.duty.setWidth 32
  | .rpmEst => s.rpmEst
  | .rpmAvg => s.rpmAvg
  | .fill => s.fill.setWidth 32
  | .widx => s.widx.setWidth 32
  | .hist i => s.hist[i.val]
  | .rampTimer => s.rampTimer.setWidth 32
  | .status => s.statusWord
  | .paramPpr => s.cfg.ppr.setWidth 32
  | .paramMaxduty => s.cfg.maxDuty.setWidth 32

end Sys2Proof.Machine
end

