-- ==== Sys2Proof/Machine/Ops.lean ====
section
/-! DEFINITION. The operations the meanings share: results and errors (60_exceptions.md), reset
(70_reset_and_hazards.md), the estimator (41_estimator.md), the filter (42_filter.md) and the ramp (43_ramp.md).
Arithmetic is exact on natural numbers and narrowed at the write (00_scope.md R14). -/

namespace Sys2Proof.Machine

/-! ## Results and errors -/

/-- `respond(code, data)` (R16, R101). -/
def State.respond (code : RCode) (data : Word) (s : State) : State := { s with rcode := code, rdata := data }

/-- The result code of an error (R104, R105). -/
def errorCode : BlockError → RCode
  | .illegal => .illegal
  | .rangeError => .range

/-- The result word of an error: 0 for Illegal (R104), DESIRED for RangeError (R105). -/
def State.errorData (s : State) : BlockError → Word
  | .illegal => 0
  | .rangeError => s.desired.setWidth 32

/-- `raise E()` (R16, R103): the sticky bit and the result, and nothing else. No state is saved, no mode changes and no vector is
taken (R109), so there is no return from it either (R110). -/
def State.raise (e : BlockError) (s : State) : State := (s.setSticky e).respond (errorCode e) (s.errorData e)

/-! ## Taking an input -/

/-- The block takes the input at the head of the stream and begins a step: the strobe of the step before is over
(R39; log 6). -/
def State.accept (rest : List HostInput) (s : State) : State := { s with pending := rest, actWe := false }

/-- A reset (R127, R129): every piece of state at its reset value, the configuration as it was (R36, R37). What the host
presents after the reset is still to come. -/
def State.resetBlock (rest : List HostInput) (s : State) : State := { State.resetWith s.cfg with pending := rest }

/-! ## The estimator -/

/-- `estimate(p) = (p * 60) / cfg.PPR`, exact product, truncating division (R73). -/
def estimate (c : Cfg) (p : Nat) : Nat := p * Config.rpmFactor / c.ppr.toNat

/-- `RPM_EST <- r` (R74, R81). -/
def State.writeEst (r : Word) (s : State) : State := { s with rpmEst := r }

/-! ## The filter -/

/-- `push(v)` (R77): the slot at WIDX, WIDX modulo 4, FILL up to 4. -/
def State.push (v : Word) (s : State) : State :=
  { s with
    hist := s.hist.set s.widx.toNat v s.widx.isLt
    widx := s.widx + 1#2
    fill := BitVec.ofNat 3 (min (s.fill.toNat + 1) Config.nHist) }

/-- The valid entries, `HIST[0..FILL-1]` (R78, R79). -/
def State.validEntries (s : State) : List Word := s.hist.toList.take s.fill.toNat

/-- `average()`: the exact sum of the valid entries, divided by FILL and truncated (R79). -/
def State.average (s : State) : Nat := (s.validEntries.map BitVec.toNat).sum / s.fill.toNat

/-- Push a value, then write RPM_AVG with the new average (R80, R81). -/
def State.pushAverage (v : Word) (s : State) : State :=
  { s.push v with rpmAvg := BitVec.ofNat 32 (s.push v).average }

/-! ## The ramp -/

/-- ACTUAL one unit toward DESIRED, never past it (R86). -/
def stepToward (actual desired : BitVec 7) : BitVec 7 :=
  if actual < desired then actual + 1#7 else if desired < actual then actual - 1#7 else actual

/-- The duty conversion of the clamped ACTUAL: `(min(ACTUAL, 100) * cfg.MAX_DUTY) / 100` (R87, R88). -/
def dutyOf (c : Cfg) (actual : BitVec 7) : BitVec 16 :=
  BitVec.ofNat 16 (min actual.toNat Config.maxSpeed * c.maxDuty.toNat / 100)

/-- `emit ActuatorWrite(DUTY)` (R16, R94): the event is recorded and ACT_WE asserted (R39). -/
def State.emitActuatorWrite (s : State) : State := { s with actWe := true, events := s.events ++ [s.duty] }

/-- `rampStep()` (R86). -/
def State.rampStep (s : State) : State :=
  let a := stepToward s.actual s.desired
  State.emitActuatorWrite { s with actual := a, duty := dutyOf s.cfg a }

/-- `RAMP_TIMER <- t` (R90). -/
def State.writeTimer (t : BitVec 8) (s : State) : State := { s with rampTimer := t }

/-- `motorWord(f) = { DUTY, 0000000, f, 0, ACTUAL }` (43_ramp.md, before R85). -/
def State.motorWord (s : State) (fired : Bool) : Word :=
  s.duty ++ 0#7 ++ BitVec.ofBool fired ++ 0#1 ++ s.actual

/-- `DESIRED <- v[6:0]` (R85). -/
def State.writeDesired (v : BitVec 7) (s : State) : State := { s with desired := v }

end Sys2Proof.Machine
end

