-- ==== Sys2Proof/Machine/Control.lean ====
section
/-! DEFINITION. The control commands NOP, RD and CLRST (44_control.md). -/

namespace Sys2Proof.Machine

/-- NOP (R96). -/
def execNop (s : State) : Answer := .next (s.respond .ok 0)

/-- RD (R97, R98). Selector 15 has only an illegal word (R66), so its meaning is that word's (R104). -/
def execRd (sel : Selector) (s : State) : Answer :=
  match selectorReg sel with
  | some r => .next (s.respond .ok (s.readReg r))
  | none => .next (s.raise .illegal)

/-- CLRST (R99): the result is STATUS after clearing. -/
def execClrst (s : State) : Answer := .next (s.clearSticky.respond .ok s.clearSticky.statusWord)

end Sys2Proof.Machine
end

