-- ==== Sys2Proof/Machine/Estimator.lean ====
section
/-! DEFINITION. EST (41_estimator.md). -/

namespace Sys2Proof.Machine

/-- EST (R74). -/
def execEst (p : Imm) (s : State) : Answer :=
  let r : Word := BitVec.ofNat 32 (estimate s.cfg (immValue p).toNat)
  .next ((s.writeEst r).respond .ok r)

end Sys2Proof.Machine
end

