-- ==== Sys2Proof/Machine/Filter.lean ====
section
/-! DEFINITION. FPUSH and SAMPLE (42_filter.md). -/

namespace Sys2Proof.Machine

/-- FPUSH (R80). -/
def execFpush (v : Imm) (s : State) : Answer :=
  let s' := s.pushAverage (immValue v)
  .next (s'.respond .ok s'.rpmAvg)

/-- SAMPLE (R81). -/
def execSample (p : Imm) (s : State) : Answer :=
  let r : Word := BitVec.ofNat 32 (estimate s.cfg (immValue p).toNat)
  let s' := (s.writeEst r).pushAverage r
  .next (s'.respond .ok s'.rpmAvg)

end Sys2Proof.Machine
end

