-- ==== Sys2Proof/Machine/Ramp.lean ====
section
/-! DEFINITION. SETD, RAMP and TICK (43_ramp.md). -/

namespace Sys2Proof.Machine

/-- SETD (R85): DESIRED takes a value up to 100; a larger one raises RangeError (R105). -/
def execSetd (v : Imm) (s : State) : Answer :=
  if (immValue v).toNat ≤ Config.maxSpeed then
    .next ((s.writeDesired (v.extractLsb' 0 7)).respond .ok (immValue v))
  else .next (s.raise .rangeError)

/-- RAMP (R89). -/
def execRamp (s : State) : Answer :=
  let s' := s.rampStep
  .next (s'.respond .ok (s'.motorWord true))

/-- TICK (R90): the sum is exact, and the test is `≥`. -/
def execTick (s : State) : Answer :=
  let t := s.rampTimer.toNat + Config.tickMs
  if Config.periodMs ≤ t then
    let s' := (s.writeTimer 0).rampStep
    .next (s'.respond .ok (s'.motorWord true))
  else
    let s' := s.writeTimer (BitVec.ofNat 8 t)
    .next (s'.respond .ok (s'.motorWord false))

end Sys2Proof.Machine
end

