-- ==== Sys2Proof/Machine/Dispatch.lean ====
section
/-! DEFINITION. One arm per instruction (30_encoding.md R62). -/

namespace Sys2Proof.Machine

/-- The meaning of an instruction. -/
def exec (i : Instr) (s : State) : Host.Outcome State Fault Refusal :=
  match i with
  | .nop => Sys2Proof.Machine.execNop s
  | .setd v => Sys2Proof.Machine.execSetd v s
  | .ramp => Sys2Proof.Machine.execRamp s
  | .tick => Sys2Proof.Machine.execTick s
  | .est p => Sys2Proof.Machine.execEst p s
  | .fpush v => Sys2Proof.Machine.execFpush v s
  | .sample p => Sys2Proof.Machine.execSample p s
  | .rd sel => Sys2Proof.Machine.execRd sel s
  | .clrst => Sys2Proof.Machine.execClrst s

end Sys2Proof.Machine
end

