-- ==== Sys2Proof/Machine/Step.lean ====
section
/-! DEFINITION. One step of the block: a command word, or a reset (10_state.md R18). -/

namespace Sys2Proof.Machine

/-- One step. The head of the stream is taken: a reset (R127, R129), an illegal word (R104; decoding comes first, R106), or a
command. With nothing presented the block "holds its state indefinitely and does nothing" (R125; log 4). -/
def step (s : State) : Host.Outcome State Fault Refusal :=
  match s.pending with
  | [] => .next s
  | .reset _ :: rest => .next (s.resetBlock rest)
  | .command cw :: rest =>
    match decode cw with
    | .ok i => exec i (s.accept rest)
    | .error _ => .next ((s.accept rest).raise .illegal)

/-- `s` with the word presented at the head of the command stream, where the next step takes it (log 3). -/
def State.withFetchWord (s : State) (nbits w : Nat) : State :=
  { s with pending := .command (wordOfTable nbits w) :: s.pending }

end Sys2Proof.Machine
end

