-- ==== Sys2Proof/Machine/Assembler.lean ====
section
/-! DEFINITION. The assembler of 30_encoding.md R69 to R72: text to command words. Corners the rules leave open are in
log 10. -/

namespace Sys2Proof.Machine

/-- Why the assembler refuses a line (R70; the literal and the missing operand, log 10). -/
inductive AsmError where
  | unknownMnemonic
  | unexpectedOperand
  | missingOperand
  | badLiteral
  | valueOutOfRange
  | selectorOutOfRange
deriving DecidableEq, Repr

/-- Characters that separate the words of a line (log 10). -/
def asmBlank (c : Char) : Bool := c == ' ' || c == '\t' || c == '\r'

/-- A line up to its comment: `;` starts one (R69). -/
def asmStrip : List Char → List Char
  | [] => []
  | c :: cs => if c = ';' then [] else c :: asmStrip cs

/-- The word gathered so far, if any. -/
def asmFlush (cur : List Char) : List (List Char) := if cur.isEmpty then [] else [cur.reverse]

/-- The words of a line; `cur` holds the word being read, backwards. -/
def asmTokens (cur : List Char) : List Char → List (List Char)
  | [] => asmFlush cur
  | c :: cs => if asmBlank c then asmFlush cur ++ asmTokens [] cs else asmTokens (c :: cur) cs

/-- The value of a digit, in either case. -/
def asmDigit (c : Char) : Nat :=
  if '0' ≤ c ∧ c ≤ '9' then c.toNat - '0'.toNat
  else if 'a' ≤ c ∧ c ≤ 'f' then c.toNat - 'a'.toNat + 10
  else if 'A' ≤ c ∧ c ≤ 'F' then c.toNat - 'A'.toNat + 10
  else 16

/-- The value of a string of digits, after the digits worth `acc`. -/
def asmDigits (base acc : Nat) : List Char → Option Nat
  | [] => some acc
  | c :: cs => if asmDigit c < base then asmDigits base (acc * base + asmDigit c) cs else none

/-- A number with at least one digit. -/
def asmNumber (base : Nat) (cs : List Char) : Option Nat := if cs.isEmpty then none else asmDigits base 0 cs

/-- A decimal literal, or a hexadecimal one with prefix `0x` (R69). -/
def asmLiteral : List Char → Option Nat
  | '0' :: 'x' :: ds => asmNumber 16 ds
  | ds => asmNumber 10 ds

/-- The mnemonics that take no operand; STOP stands for `SETD 0` (R59, R71). -/
def asmFormatN : List (String × Instr) :=
  [("NOP", .nop), ("RAMP", .ramp), ("TICK", .tick), ("CLRST", .clrst), ("STOP", .setd 0)]

/-- The mnemonics of format I (R59). -/
def asmFormatI : List (String × (Imm → Instr)) :=
  [("SETD", .setd), ("EST", .est), ("FPUSH", .fpush), ("SAMPLE", .sample)]

/-- The register names RD takes (R69), each with its selector (10_state.md R38). -/
def asmRegNames : List (String × Nat) :=
  [("DESIRED", 0), ("ACTUAL", 1), ("DUTY", 2), ("RPM_EST", 3), ("RPM_AVG", 4), ("FILL", 5), ("WIDX", 6), ("HIST0", 7),
    ("HIST1", 8), ("HIST2", 9), ("HIST3", 10), ("RAMP_TIMER", 11), ("STATUS", 12), ("PARAM_PPR", 13),
    ("PARAM_MAXDUTY", 14)]

/-- The one operand of a line. -/
def asmOperand : List (List Char) → Except AsmError (List Char)
  | [] => .error .missingOperand
  | [v] => .ok v
  | _ => .error .unexpectedOperand

/-- An operand that is a literal below `bound` (R70). -/
def asmBounded (bound : Nat) (ops : List (List Char)) : Except AsmError Nat :=
  match asmOperand ops with
  | .error e => .error e
  | .ok v =>
    match asmLiteral v with
    | none => .error .badLiteral
    | some n => if n < bound then .ok n else .error .valueOutOfRange

/-- RD's selector: a register name, or a decimal 0 to 14 (R69, R70). -/
def asmSelector (ops : List (List Char)) : Except AsmError Nat :=
  match asmOperand ops with
  | .error e => .error e
  | .ok v =>
    match asmRegNames.lookup (String.ofList v) with
    | some n => .ok n
    | none =>
      match asmNumber 10 v with
      | none => .error .badLiteral
      | some n => if n < 15 then .ok n else .error .selectorOutOfRange

/-- The command a mnemonic and its operands spell (R69 to R71); mnemonics are case-insensitive. -/
def asmCommand (m : List Char) (ops : List (List Char)) : Except AsmError Instr :=
  let name := String.ofList (m.map Char.toUpper)
  match asmFormatN.lookup name with
  | some i => if ops.isEmpty then .ok i else .error .unexpectedOperand
  | none =>
    match asmFormatI.lookup name with
    | some mk => (asmBounded (2 ^ 24) ops).map fun n => mk (BitVec.ofNat 24 n)
    | none =>
      if name = "RD" then (asmSelector ops).map fun n => .rd (BitVec.ofNat 4 n) else .error .unknownMnemonic

/-- One line: nothing, a command, or `.word v`, which emits the raw word (R69, R70). -/
def assembleLine (line : List Char) : Except AsmError (Option Word) :=
  match asmTokens [] (asmStrip line) with
  | [] => .ok none
  | m :: ops =>
    if String.ofList m = ".word" then (asmBounded (2 ^ 32) ops).map fun n => some (BitVec.ofNat 32 n)
    else (asmCommand m ops).map fun i => some (encode i)

/-- The lines of a text; `cur` holds the line being read, backwards. -/
def asmLines (cur : List Char) : List Char → List (List Char)
  | [] => [cur.reverse]
  | c :: cs => if c = '\n' then cur.reverse :: asmLines [] cs else asmLines (c :: cur) cs

/-- The words of the lines, in order, or the first refusal. -/
def assembleLines : List (List Char) → Except AsmError (List Word)
  | [] => .ok []
  | l :: ls =>
    match assembleLine l, assembleLines ls with
    | .error e, _ => .error e
    | .ok _, .error e => .error e
    | .ok w, .ok ws => .ok (w.toList ++ ws)

/-- A program text, one command a line (R69), to its command words. -/
def assemble (text : String) : Except AsmError (List Word) := assembleLines (asmLines [] text.toList)

end Sys2Proof.Machine
end

