-- ==== Sys2Proof/Safety.lean ====
section
/-! DEFINITION. The terms claims use: the invariants of 10_state.md R40 to R44, the reset values of R127, the shapes of
illegal words (R64), the parts of the state the two data paths own (R3), the filter's window (R77, R78), and the host's
duties (R115 to R121). -/

namespace Sys2Proof.Machine

/-! ## Invariants -/

/-- R40: both speeds are at most 100. -/
abbrev State.SpeedRange (s : State) : Prop := s.desired.toNat ≤ 100 ∧ s.actual.toNat ≤ 100

/-- R41: FILL is at most 4, and WIDX equals FILL before the wrap. -/
abbrev State.FilterIndices (s : State) : Prop :=
  s.fill.toNat ≤ 4 ∧ (s.fill.toNat < 4 → s.widx.toNat = s.fill.toNat)

/-- 93_implementation_defined.md: a slot that is not valid holds its reset value. -/
abbrev State.UnusedSlotsZero (s : State) : Prop := ∀ i : Fin 4, s.fill.toNat ≤ i.val → s.hist[i.val] = 0

/-- R42: the prescaler between commands. -/
abbrev State.Prescaler (s : State) : Prop := s.rampTimer.toNat ∈ [0, 10, 20, 30, 40]

/-- R43: DUTY is the conversion of ACTUAL. -/
abbrev State.DutyConsistent (s : State) : Prop := s.duty.toNat = s.actual.toNat * s.cfg.maxDuty.toNat / 100

/-- R44: no estimate, average or history slot exceeds (2^24 - 1) * 60, and DUTY is at most MAX_DUTY. -/
abbrev State.ValuesBounded (s : State) : Prop :=
  s.rpmEst.toNat ≤ 1006632900 ∧ s.rpmAvg.toNat ≤ 1006632900 ∧ (∀ i : Fin 4, s.hist[i.val].toNat ≤ 1006632900) ∧
    s.duty.toNat ≤ s.cfg.maxDuty.toNat

/-- The invariants of 10_state.md, together. -/
abbrev State.Inv (s : State) : Prop :=
  s.SpeedRange ∧ s.FilterIndices ∧ s.UnusedSlotsZero ∧ s.Prescaler ∧ s.DutyConsistent ∧ s.ValuesBounded

/-! ## Reset -/

/-- The table of R127, the configuration apart. -/
abbrev State.AtReset (s : State) : Prop :=
  s.desired = 0 ∧ s.actual = 0 ∧ s.duty = 0 ∧ s.dutyOut = 0 ∧ s.rpmEst = 0 ∧ s.rpmAvg = 0 ∧
    (∀ i : Fin 4, s.hist[i.val] = 0) ∧ s.widx = 0 ∧ s.fill = 0 ∧ s.rampTimer = 0 ∧ s.rerr = false ∧ s.ill = false ∧
    s.full = false ∧ s.atTarget = true ∧ s.rcode.bits = 0 ∧ s.rdata = 0

/-! ## Illegal words -/

/-- The five shapes of R64, in the value of the word. -/
abbrev IllegalShape (cw : Word) : Prop :=
  cw.toNat / 2 ^ 24 % 16 ≠ 0 ∨ 9 ≤ cw.toNat / 2 ^ 28 ∨
    (cw.toNat / 2 ^ 28 ∈ [0, 2, 3, 8] ∧ cw.toNat % 2 ^ 24 ≠ 0) ∨
    (cw.toNat / 2 ^ 28 = 7 ∧ cw.toNat / 2 ^ 4 % 2 ^ 20 ≠ 0) ∨
    (cw.toNat / 2 ^ 28 = 7 ∧ cw.toNat % 2 ^ 4 = 15)

/-! ## The two data paths (R3) -/

/-- The two states agree on the ramp's registers and outputs. -/
abbrev State.SameRamp (s t : State) : Prop :=
  s.desired = t.desired ∧ s.actual = t.actual ∧ s.duty = t.duty ∧ s.rampTimer = t.rampTimer ∧ s.actWe = t.actWe ∧
    s.events = t.events

/-- The two states agree on the estimator's and the filter's registers. -/
abbrev State.SameFilter (s t : State) : Prop :=
  s.rpmEst = t.rpmEst ∧ s.rpmAvg = t.rpmAvg ∧ s.hist = t.hist ∧ s.widx = t.widx ∧ s.fill = t.fill

/-- The two states agree on the sticky bits. -/
abbrev State.SameSticky (s t : State) : Prop := s.rerr = t.rerr ∧ s.ill = t.ill

/-! ## The filter's window -/

/-- The valid entries, oldest first: slots 0 to FILL-1 before the wrap, and after it all four from WIDX on (R41, R77, R78). -/
def State.window (s : State) : List Nat :=
  let h := s.hist.toList.map BitVec.toNat
  if s.fill.toNat < 4 then h.take s.fill.toNat else h.drop s.widx.toNat ++ h.take s.widx.toNat

/-- The last four of a list. -/
def lastFour (l : List Nat) : List Nat := l.drop (l.length - 4)

/-! ## Runs -/

/-- The host presents the commands, ahead of what it has presented already. -/
def State.present (s : State) (is : List Instr) : State :=
  { s with pending := is.map (fun i => HostInput.command (encode i)) ++ s.pending }

/-- `n` steps of the block. -/
def State.run (n : Nat) (s : State) : Answer := Host.Core.run Sys2Proof.core n s

/-- The ACTUAL that one ramp step leaves, as an integer: one unit toward the target (R92). -/
def towards (actual desired : Int) : Int := actual + Int.sign (desired - actual)

/-! ## The host contract (60_exceptions.md R115 to R121) -/

/-- One main-loop iteration of the host (R115): at most one SETD, at most one SAMPLE with its telemetry reads, one TICK. -/
structure HostIteration where
  /-- The parser's outcome, if any (R119). -/
  setd : Option Imm
  /-- The completed interval's count, if any (R116), and whether telemetry reads RPM_AVG by RD too (R120). -/
  sample : Option (Imm × Bool)
deriving DecidableEq, Repr

/-- The commands of an iteration, in the order of R115; telemetry reads ACTUAL, and RPM_AVG from SAMPLE's result or by RD
(R120). -/
def HostIteration.commands (it : HostIteration) : List Instr :=
  it.setd.toList.map Instr.setd ++
    (match it.sample with
      | none => []
      | some (p, readAvg) => [.sample p, .rd 1] ++ (if readAvg then [.rd 4] else [])) ++
    [.tick]

/-- The host's duty on SETD: it issues it only with a value up to 100 (R119). -/
def HostIteration.conforms (it : HostIteration) : Bool := it.setd.all fun v => v.toNat ≤ 100

end Sys2Proof.Machine
end

