-- ==== Sys2Proof/Certificates/Slice0/Obligations.lean ====
section
/-! DEFINITION. The statements for the provers. Each docstring names the rules of spec/ it formalises.
Wherever a statement speaks of `pending`, `present` or `run`, the command stream is held as the model chose (log 3), and
wherever it speaks of `actWe`, the strobe is (log 6). -/

open Sys2Proof Sys2Proof.Machine

/-! ## Encoding -/

/-- 30_encoding.md R72, 95_test_vectors.md 2.1: words of every family, written out from the encoding, decode to what they
stand for, and illegal ones are refused for the reason given there. -/
def Obligations.SpecWordsDecode : Prop :=
  decode 0x00000000 = .ok .nop ∧ decode 0x1000004B = .ok (.setd 75) ∧ decode 0x20000000 = .ok .ramp ∧
    decode 0x30000000 = .ok .tick ∧ decode 0x40000064 = .ok (.est 100) ∧ decode 0x5000000A = .ok (.fpush 10) ∧
    decode 0x60FFFFFF = .ok (.sample 0xFFFFFF) ∧ decode 0x7000000E = .ok (.rd 14) ∧ decode 0x80000000 = .ok .clrst ∧
    decode 0x90000000 = .error .reservedOpcode ∧ decode 0x21000000 = .error .rsvNonZero ∧
    decode 0x20000001 = .error .operandOnFormatN ∧ decode 0x70000010 = .error .rdOperandBits ∧
    decode 0x7000000F = .error .rdSelectorReserved

/-- 30_encoding.md section 2: decoding gives back every well-formed instruction, with every operand. -/
def Obligations.DecodeOfEncode : Prop := ∀ i : Instr, i.wellFormed = true → decode (encode i) = .ok i

/-- 30_encoding.md section 2: a legal word has one instruction, and no bit of the word is dropped. -/
def Obligations.EncodeOfDecode : Prop :=
  ∀ (cw : Word) (i : Instr), decode cw = .ok i → i.wellFormed = true ∧ encode i = cw

/-- 30_encoding.md R59 to R61: the operand of a decoded command is the value of the word's field. -/
def Obligations.OperandIsTheFieldValue : Prop :=
  ∀ cw : Word,
    (∀ v : Imm, (decode cw = .ok (.setd v) ∨ decode cw = .ok (.est v) ∨ decode cw = .ok (.fpush v) ∨
        decode cw = .ok (.sample v)) → (immValue v).toNat = cw.toNat % 2 ^ 24) ∧
      ∀ sel : Selector, decode cw = .ok (.rd sel) → sel.toNat = cw.toNat % 2 ^ 4

/-- R64 (with R65, R66): a word is illegal exactly when it has one of the five shapes, and executing it changes no state
except STATUS.ILL (and the result; that the
input is taken and the strobe of the step before is over is the model's form, log 3 and 6). -/
def Obligations.IllegalExactlyWhenListed : Prop :=
  (∀ cw : Word, (∃ r, decode cw = .error r) ↔ IllegalShape cw) ∧
    ∀ (s : State) (cw : Word) (rest : List HostInput), s.pending = .command cw :: rest → IllegalShape cw →
      step s = .next { s with pending := rest, actWe := false, ill := true, rcode := .illegal, rdata := 0 }

/-- R104: an illegal word sets STATUS.ILL and answers ILLEGAL/0, and nothing else does (the stream and the strobe are in the
model's form, log 3 and 6). -/
def Obligations.IllegalRaisedByIllegalWordsOnly : Prop :=
  ∀ (s : State) (cw : Word) (rest : List HostInput), s.pending = .command cw :: rest →
    (IllegalShape cw →
      step s = .next { s with pending := rest, actWe := false, ill := true, rcode := .illegal, rdata := 0 }) ∧
    (¬ IllegalShape cw → ∃ t, step s = .next t ∧ t.rcode ≠ .illegal ∧ (t.ill = true → s.ill = true))

/-- R62: at most one row of the opcode map matches any word; a legal word's row is its instruction's; and a word that
selects a row decodes to that row's command, but for RD's selector 15. -/
def Obligations.OpcodeMapAgreesWithDecode : Prop :=
  (∀ cw : Word, ∀ r ∈ opcodeTable, ∀ r' ∈ opcodeTable, r.selects cw = true → r'.selects cw = true → r = r') ∧
    (∀ (cw : Word) (i : Instr), decode cw = .ok i → ∃ r ∈ opcodeTable, r.mnemonic = i.mnemonic ∧ r.selects cw = true) ∧
    ∀ cw : Word, ∀ r ∈ opcodeTable, r.selects cw = true →
      if cw = 0x7000000F then r.mnemonic = "RD" ∧ ∃ e, decode cw = .error e
      else ∃ i, decode cw = .ok i ∧ i.mnemonic = r.mnemonic

/-- 30_encoding.md section 4 (R70): `.word` is the only way to write an illegal word. -/
def Obligations.AssemblerEmitsLegalWords : Prop :=
  ∀ (line : List Char) (m : List Char) (ops : List (List Char)) (cw : Word),
    asmTokens [] (asmStrip line) = m :: ops → String.ofList m ≠ ".word" → assembleLine line = .ok (some cw) →
    ∃ i, i.wellFormed = true ∧ decode cw = .ok i

/-- 30_encoding.md section 4 (R69, R70): a format I line with a literal assembles to that value's word, and is refused exactly
when the value is outside 0 to 16777215. -/
def Obligations.AssemblerWritesTheLiteral : Prop :=
  ∀ (line m v : List Char) (name : String) (mk : Imm → Instr) (n : Nat), (name, mk) ∈ asmFormatI →
    asmTokens [] (asmStrip line) = [m, v] → String.ofList (m.map Char.toUpper) = name → asmLiteral v = some n →
    assembleLine line =
      if n ≤ 16777215 then .ok (some (encode (mk (BitVec.ofNat 24 n)))) else .error .valueOutOfRange

/-- R71: STOP, in any case, assembles to `SETD 0`, word 0x10000000; executing it sets DESIRED to 0 and answers OK/0. -/
def Obligations.StopIsSetdZero : Prop :=
  (∀ line m : List Char, asmTokens [] (asmStrip line) = [m] → String.ofList (m.map Char.toUpper) = "STOP" →
    assembleLine line = .ok (some 0x10000000)) ∧
    decode 0x10000000 = .ok (.setd 0) ∧
    ∀ s : State, exec (.setd 0) s = .next { s with desired := 0, rcode := .ok, rdata := 0 }

/-- 00_scope.md R7 and R8 (log 2): a configuration is accepted exactly in 1 to 65535, and holds the values given. -/
def Obligations.ConfigurationRange : Prop :=
  ∀ p d : Nat,
    ((Cfg.make? p d).isSome = true ↔ (1 ≤ p ∧ p ≤ 65535) ∧ (1 ≤ d ∧ d ≤ 65535)) ∧
      ∀ c, Cfg.make? p d = some c → c.ppr.toNat = p ∧ c.maxDuty.toNat = d

/-! ## The step -/

/-- 10_state.md R18, 20_memory.md R54 (log 3, 6): when the presented word decodes, the step is that command's meaning, on
the state with the input taken and the strobe of the step before over. -/
def Obligations.StepRunsDecodedCommand : Prop :=
  ∀ (s : State) (cw : Word) (rest : List HostInput) (i : Instr), s.pending = .command cw :: rest →
    decode cw = .ok i → step s = exec i { s with pending := rest, actWe := false }

/-- R126, R101: every 32-bit word completes in one step with a result of its own, whatever result stood before (the stream
is in the model's form, log 3). -/
def Obligations.EveryWordCompletesInOneStep : Prop :=
  ∀ (s : State) (cw : Word) (rest : List HostInput), s.pending = .command cw :: rest →
    ∃ t, step s = .next t ∧ t.pending = rest ∧
      ∀ (c : RCode) (d : Word), step { s with rcode := c, rdata := d } = .next t

/-- 60_exceptions.md R125 (the model's choice, log 4): with nothing presented the block holds its state. -/
def Obligations.IdleBlockHoldsItsState : Prop := ∀ s : State, s.pending = [] → step s = .next s

/-- R127: a reset sets every piece of state to the value of the table, and the configuration is not changed by it; the model
begins there (the stream is in the model's form, log 3). -/
def Obligations.ResetSetsEveryRegister : Prop :=
  State.reset.AtReset ∧
    ∀ (s : State) (c : Option Word) (rest : List HostInput), s.pending = .reset c :: rest →
      ∃ t, step s = .next t ∧ t.AtReset ∧ t.cfg = s.cfg ∧ t.readReg .status = 0x00000008 ∧
        t.readReg .paramPpr = s.cfg.ppr.setWidth 32 ∧ t.readReg .paramMaxduty = s.cfg.maxDuty.setWidth 32

/-- 70_reset_and_hazards.md R128, R129: a reset discards the command presented together with it, asserts no strobe, and leaves
no event recorded (the model's choice, log 5); what the host presents later is still to come (log 3). -/
def Obligations.ResetDiscardsCoincidentCommand : Prop :=
  ∀ (s : State) (cw : Word) (rest : List HostInput), s.pending = .reset (some cw) :: rest →
    step s = step { s with pending := .reset none :: rest } ∧
      ∃ t, step s = .next t ∧ t.actWe = false ∧ t.events = [] ∧ t.pending = rest

/-! ## Results of the commands -/

/-- R96: NOP is the word 0x00000000 and answers OK/0, and changes nothing else; any other word with OPC 0 is illegal
(the stream and the strobe of the step are in the model's form, log 3 and 6). -/
def Obligations.NopResult : Prop :=
  (∀ cw : Word, cw.toNat < 2 ^ 28 → if cw.toNat = 0 then decode cw = .ok .nop else ∃ r, decode cw = .error r) ∧
  ∀ s : State, exec .nop s = .next { s with rcode := .ok, rdata := 0 } ∧
    ∀ rest, s.pending = .command 0x00000000 :: rest →
      step s = .next { s with pending := rest, actWe := false, rcode := .ok, rdata := 0 }

/-- R85: SETD, match 0x10000000, takes a value up to 100 and answers it; a larger one raises RangeError. Nothing else changes. -/
def Obligations.SetdResult : Prop :=
  (∀ (cw : Word) (v : Imm), cw.toNat = 0x10000000 + v.toNat → decode cw = .ok (.setd v)) ∧
  ∀ (v : Imm) (s : State),
    (v.toNat ≤ 100 → ∃ t, exec (.setd v) s = .next t ∧ t.desired.toNat = v.toNat ∧ t.rdata.toNat = v.toNat ∧
      t = { s with desired := t.desired, rcode := .ok, rdata := t.rdata }) ∧
    (100 < v.toNat → ∃ t, exec (.setd v) s = .next t ∧ t.rdata.toNat = s.desired.toNat ∧
      t = { s with rerr := true, rcode := .range, rdata := t.rdata })

/-- R105: RangeError is raised by SETD above 100 and by nothing else; DESIRED is unchanged. -/
def Obligations.RangeErrorRaisedBySetdOnly : Prop :=
  ∀ (i : Instr) (s : State),
    ((∃ v : Imm, i = .setd v ∧ 100 < v.toNat) →
      exec i s = .next { s with rerr := true, rcode := .range, rdata := s.desired.setWidth 32 }) ∧
    ((¬ ∃ v : Imm, i = .setd v ∧ 100 < v.toNat) →
      ∃ t, exec i s = .next t ∧ t.rcode ≠ .range ∧ (t.rerr = true → s.rerr = true))

/-- R86, R88, R89: RAMP, word 0x20000000, moves ACTUAL one unit toward DESIRED or not at all, programs the duty of the clamped ACTUAL, records
one ActuatorWrite, and answers motorWord(1). Nothing else changes. -/
def Obligations.RampResult : Prop :=
  decode 0x20000000 = .ok .ramp ∧
  ∀ s : State, ∃ t, exec .ramp s = .next t ∧
    (t.actual.toNat : Int) = towards s.actual.toNat s.desired.toNat ∧
    t.duty.toNat = min t.actual.toNat 100 * s.cfg.maxDuty.toNat / 100 ∧
    t.rdata.toNat = t.duty.toNat * 2 ^ 16 + 2 ^ 8 + t.actual.toNat ∧
    t = { s with
      actual := t.actual, duty := t.duty, actWe := true, events := s.events ++ [t.duty], rcode := .ok, rdata := t.rdata }

/-- R90: TICK, word 0x30000000, adds 10 to RAMP_TIMER; at 50 or more it clears the timer and runs one ramp step. Nothing else changes. -/
def Obligations.TickResult : Prop :=
  decode 0x30000000 = .ok .tick ∧
  ∀ s : State, ∃ t, exec .tick s = .next t ∧
    (s.rampTimer.toNat + 10 < 50 →
      t.rampTimer.toNat = s.rampTimer.toNat + 10 ∧ t.rdata.toNat = s.duty.toNat * 2 ^ 16 + s.actual.toNat ∧
      t = { s with rampTimer := t.rampTimer, rcode := .ok, rdata := t.rdata }) ∧
    (50 ≤ s.rampTimer.toNat + 10 →
      (t.actual.toNat : Int) = towards s.actual.toNat s.desired.toNat ∧
      t.duty.toNat = min t.actual.toNat 100 * s.cfg.maxDuty.toNat / 100 ∧
      t.rdata.toNat = t.duty.toNat * 2 ^ 16 + 2 ^ 8 + t.actual.toNat ∧
      t = { s with
        rampTimer := 0, actual := t.actual, duty := t.duty, actWe := true, events := s.events ++ [t.duty], rcode := .ok,
        rdata := t.rdata })

/-- R73, R74: EST, match 0x40000000, writes the truncated exact quotient and answers it. Nothing else changes. -/
def Obligations.EstResult : Prop :=
  (∀ (cw : Word) (p : Imm), cw.toNat = 0x40000000 + p.toNat → decode cw = .ok (.est p)) ∧
  ∀ (p : Imm) (s : State), ∃ t, exec (.est p) s = .next t ∧
    t.rpmEst.toNat = p.toNat * 60 / s.cfg.ppr.toNat ∧
    t = { s with rpmEst := t.rpmEst, rcode := .ok, rdata := t.rpmEst }

/-- R80 (with R77 and R79): FPUSH, match 0x50000000, writes the slot at WIDX, advances WIDX modulo 4 and FILL up to 4, and
answers the truncated average of the exact sum of HIST[0..FILL-1]. Nothing else changes. -/
def Obligations.FpushResult : Prop :=
  (∀ (cw : Word) (v : Imm), cw.toNat = 0x50000000 + v.toNat → decode cw = .ok (.fpush v)) ∧
  ∀ (v : Imm) (s : State), ∃ t, exec (.fpush v) s = .next t ∧
    (∀ i : Fin 4, t.hist[i.val].toNat = if i.val = s.widx.toNat then v.toNat else s.hist[i.val].toNat) ∧
    t.widx.toNat = (s.widx.toNat + 1) % 4 ∧ t.fill.toNat = min (s.fill.toNat + 1) 4 ∧
    t.rpmAvg.toNat = ((t.hist.toList.take t.fill.toNat).map BitVec.toNat).sum / t.fill.toNat ∧
    t = { s with
      hist := t.hist, widx := t.widx, fill := t.fill, rpmAvg := t.rpmAvg, rcode := .ok, rdata := t.rpmAvg }

/-- R81: SAMPLE, match 0x60000000, estimates, then pushes the estimate and averages. Nothing else changes. -/
def Obligations.SampleResult : Prop :=
  (∀ (cw : Word) (p : Imm), cw.toNat = 0x60000000 + p.toNat → decode cw = .ok (.sample p)) ∧
  ∀ (p : Imm) (s : State), ∃ t, exec (.sample p) s = .next t ∧
    t.rpmEst.toNat = p.toNat * 60 / s.cfg.ppr.toNat ∧
    (∀ i : Fin 4, t.hist[i.val] = if i.val = s.widx.toNat then t.rpmEst else s.hist[i.val]) ∧
    t.widx.toNat = (s.widx.toNat + 1) % 4 ∧ t.fill.toNat = min (s.fill.toNat + 1) 4 ∧
    t.rpmAvg.toNat = ((t.hist.toList.take t.fill.toNat).map BitVec.toNat).sum / t.fill.toNat ∧
    t = { s with
      rpmEst := t.rpmEst, hist := t.hist, widx := t.widx, fill := t.fill, rpmAvg := t.rpmAvg, rcode := .ok,
      rdata := t.rpmAvg }

/-- R97, R98: RD, match 0x70000000, answers the selected register, zero-extended, and changes nothing else. -/
def Obligations.RdResult : Prop :=
  (∀ (cw : Word) (sel : Selector), cw.toNat = 0x70000000 + sel.toNat → sel.toNat ≠ 15 → decode cw = .ok (.rd sel)) ∧
  ∀ (sel : Selector) (s : State), sel.toNat ≠ 15 → ∃ t, exec (.rd sel) s = .next t ∧
    t = { s with rcode := .ok, rdata := t.rdata } ∧
    (sel.toNat = 0 → t.rdata.toNat = s.desired.toNat) ∧ (sel.toNat = 1 → t.rdata.toNat = s.actual.toNat) ∧
    (sel.toNat = 2 → t.rdata.toNat = s.duty.toNat) ∧ (sel.toNat = 3 → t.rdata = s.rpmEst) ∧
    (sel.toNat = 4 → t.rdata = s.rpmAvg) ∧ (sel.toNat = 5 → t.rdata.toNat = s.fill.toNat) ∧
    (sel.toNat = 6 → t.rdata.toNat = s.widx.toNat) ∧
    (∀ i : Fin 4, sel.toNat = 7 + i.val → t.rdata = s.hist[i.val]) ∧
    (sel.toNat = 11 → t.rdata.toNat = s.rampTimer.toNat) ∧
    (sel.toNat = 12 → t.rdata.toNat = (if s.rerr then 1 else 0) + (if s.ill then 2 else 0) +
      (if s.fill.toNat = 4 then 4 else 0) + (if s.actual = s.desired then 8 else 0)) ∧
    (sel.toNat = 13 → t.rdata.toNat = s.cfg.ppr.toNat) ∧ (sel.toNat = 14 → t.rdata.toNat = s.cfg.maxDuty.toNat)

/-- R99: CLRST, word 0x80000000, clears RERR and ILL and answers STATUS after clearing. Nothing else changes. -/
def Obligations.ClrstResult : Prop :=
  decode 0x80000000 = .ok .clrst ∧
  ∀ s : State, ∃ t, exec .clrst s = .next t ∧
    t.rdata.toNat = (if s.fill.toNat = 4 then 4 else 0) + (if s.actual = s.desired then 8 else 0) ∧
    t = { s with rerr := false, ill := false, rcode := .ok, rdata := t.rdata }

/-- R102: the table of results (the stream of its last row is in the model's form, log 3). -/
def Obligations.ResultTable : Prop :=
  (∀ s, ∃ t, exec .nop s = .next t ∧ t.rcode.bits = 0 ∧ t.rdata = 0) ∧
    (∀ (v : Imm) s, ∃ t, exec (.setd v) s = .next t ∧
      if v.toNat ≤ 100 then t.rcode.bits = 0 ∧ t.rdata.toNat = v.toNat
      else t.rcode.bits = 1 ∧ t.rdata.toNat = s.desired.toNat ∧ t.desired = s.desired) ∧
    (∀ s, ∃ t, exec .ramp s = .next t ∧ t.rcode.bits = 0 ∧
      t.rdata.toNat = t.duty.toNat * 2 ^ 16 + 2 ^ 8 + t.actual.toNat) ∧
    (∀ s, ∃ t, exec .tick s = .next t ∧ t.rcode.bits = 0 ∧
      t.rdata.toNat = t.duty.toNat * 2 ^ 16 + (if 40 ≤ s.rampTimer.toNat then 2 ^ 8 else 0) + t.actual.toNat) ∧
    (∀ (p : Imm) s, ∃ t, exec (.est p) s = .next t ∧ t.rcode.bits = 0 ∧
      t.rdata.toNat = p.toNat * 60 / s.cfg.ppr.toNat) ∧
    (∀ (v : Imm) s, ∃ t, exec (.fpush v) s = .next t ∧ t.rcode.bits = 0 ∧ t.rdata = t.rpmAvg) ∧
    (∀ (p : Imm) s, ∃ t, exec (.sample p) s = .next t ∧ t.rcode.bits = 0 ∧ t.rdata = t.rpmAvg) ∧
    (∀ (sel : Selector) s, sel.toNat ≠ 15 → ∃ t r, exec (.rd sel) s = .next t ∧ t.rcode.bits = 0 ∧
      selectorReg sel = some r ∧ t.rdata = s.readReg r) ∧
    (∀ s, ∃ t, exec .clrst s = .next t ∧ t.rcode.bits = 0 ∧ t.rdata = t.statusWord) ∧
    ∀ (s : State) (cw : Word) (rest : List HostInput), s.pending = .command cw :: rest → IllegalShape cw →
      ∃ t, step s = .next t ∧ t.rcode.bits = 2 ∧ t.rdata = 0

/-! ## Whole-machine rules -/

/-- R103: an error leaves every register as it was, but for the sticky bits and the result. -/
def Obligations.ErrorsArePrecise : Prop :=
  ∀ (s t : State) (cw : Word) (rest : List HostInput), s.pending = .command cw :: rest → step s = .next t →
    t.rcode ≠ .ok →
    t = { s with
      pending := rest, actWe := false, rerr := t.rerr, ill := t.ill, rcode := t.rcode, rdata := t.rdata } ∧
    (t.rcode = .range → t.rerr = true ∧ t.ill = s.ill) ∧ (t.rcode = .illegal → t.ill = true ∧ t.rerr = s.rerr)

/-- 10_state.md R22 to R30, R38: each register is written only by the commands its rule lists. -/
def Obligations.RegistersWrittenOnlyByTheirCommands : Prop :=
  ∀ (i : Instr) (s t : State), exec i s = .next t →
    (i.mnemonic ≠ "SETD" → t.desired = s.desired ∧ t.rerr = (s.rerr && i.mnemonic != "CLRST")) ∧
    (i.mnemonic ∉ ["RAMP", "TICK"] →
      t.actual = s.actual ∧ t.duty = s.duty ∧ t.actWe = s.actWe ∧ t.events = s.events) ∧
    (i.mnemonic ≠ "TICK" → t.rampTimer = s.rampTimer) ∧
    (i.mnemonic ∉ ["EST", "SAMPLE"] → t.rpmEst = s.rpmEst) ∧
    (i.mnemonic ∉ ["FPUSH", "SAMPLE"] →
      t.rpmAvg = s.rpmAvg ∧ t.hist = s.hist ∧ t.widx = s.widx ∧ t.fill = s.fill) ∧
    (i.wellFormed = true → t.ill = (s.ill && i.mnemonic != "CLRST")) ∧
    t.cfg = s.cfg ∧ t.pending = s.pending

/-- R17, R36, R37: no command and no reset changes the configuration. -/
def Obligations.ConfigurationNeverChanges : Prop := ∀ s t : State, step s = .next t → t.cfg = s.cfg

/-- R32, R33: a sticky bit is set only by its error, and keeps the value 1 until CLRST or a reset. -/
def Obligations.StickyBitsHoldUntilCleared : Prop :=
  ∀ (s t : State) (cw : Word) (rest : List HostInput), s.pending = .command cw :: rest → step s = .next t →
    (t.rerr = true ↔ (∃ v : Imm, decode cw = .ok (.setd v) ∧ 100 < v.toNat) ∨
      (s.rerr = true ∧ decode cw ≠ .ok .clrst)) ∧
    (t.ill = true ↔ IllegalShape cw ∨ (s.ill = true ∧ decode cw ≠ .ok .clrst))

/-- 43_ramp.md R94, 10_state.md R39: RAMP and a firing TICK record exactly one ActuatorWrite, of the DUTY just computed, and
assert ACT_WE in that step; no other command does (log 5, 6). -/
def Obligations.OneActuatorWritePerRampStep : Prop :=
  ∀ (s t : State) (cw : Word) (rest : List HostInput), s.pending = .command cw :: rest → step s = .next t →
    ((decode cw = .ok .ramp ∨ (decode cw = .ok .tick ∧ 40 ≤ s.rampTimer.toNat)) →
      t.events = s.events ++ [t.duty] ∧ t.actWe = true ∧ t.dutyOut = t.duty) ∧
    (¬ (decode cw = .ok .ramp ∨ (decode cw = .ok .tick ∧ 40 ≤ s.rampTimer.toNat)) →
      t.events = s.events ∧ t.actWe = false ∧ t.dutyOut = s.dutyOut)

/-- 43_ramp.md R93: a command moves ACTUAL by at most one unit, whatever the distance to DESIRED, and never past DESIRED. -/
def Obligations.ActualMovesByAtMostOne : Prop :=
  ∀ (i : Instr) (s t : State), exec i s = .next t →
    t.actual.toNat ≤ s.actual.toNat + 1 ∧ s.actual.toNat ≤ t.actual.toNat + 1 ∧
    (s.actual.toNat ≤ s.desired.toNat → s.actual.toNat ≤ t.actual.toNat ∧ t.actual.toNat ≤ s.desired.toNat) ∧
    (s.desired.toNat ≤ s.actual.toNat → s.desired.toNat ≤ t.actual.toNat ∧ t.actual.toNat ≤ s.actual.toNat)

/-- R87: the conversion gives 0 at 0, exactly MAX_DUTY at 100 (and above, by the clamp of R88), and never more. -/
def Obligations.DutyConversion : Prop :=
  ∀ s : State, ∃ t, exec .ramp s = .next t ∧
    t.duty.toNat = min t.actual.toNat 100 * s.cfg.maxDuty.toNat / 100 ∧
    (t.actual.toNat = 0 → t.duty.toNat = 0) ∧ (100 ≤ t.actual.toNat → t.duty = s.cfg.maxDuty) ∧
    t.duty.toNat ≤ s.cfg.maxDuty.toNat

/-- R76: the estimate is monotone in the pulse count, and is the floor of the exact quotient. -/
def Obligations.EstimateIsMonotoneFloor : Prop :=
  ∀ (p q : Imm) (s : State), p.toNat ≤ q.toNat → ∃ t u, exec (.est p) s = .next t ∧ exec (.est q) s = .next u ∧
    t.rpmEst.toNat ≤ u.rpmEst.toNat ∧ t.rpmEst.toNat * s.cfg.ppr.toNat ≤ 60 * p.toNat ∧
    60 * p.toNat < (t.rpmEst.toNat + 1) * s.cfg.ppr.toNat

/-- 42_filter.md R79: the average is at most the largest valid entry and at least the smallest, after FPUSH and SAMPLE. -/
def Obligations.AverageBetweenEntries : Prop :=
  ∀ (i : Instr) (s : State), i.mnemonic ∈ ["FPUSH", "SAMPLE"] → ∃ t, exec i s = .next t ∧
    (∃ w ∈ t.hist.toList.take t.fill.toNat, t.rpmAvg.toNat ≤ w.toNat) ∧
    (∃ w ∈ t.hist.toList.take t.fill.toNat, w.toNat ≤ t.rpmAvg.toNat)

/-- 42_filter.md R77 to R79, R82: the circular buffer is a queue of the last four pushed values, and the output is their
truncated average; before the wrap only the values pushed so far count. -/
def Obligations.FilterIsAverageOfLastFour : Prop :=
  ∀ (i : Instr) (v : Nat) (s : State), s.FilterIndices →
    ((∃ x : Imm, i = .fpush x ∧ v = x.toNat) ∨ (∃ p : Imm, i = .sample p ∧ v = p.toNat * 60 / s.cfg.ppr.toNat)) →
    ∃ t, exec i s = .next t ∧ t.window = lastFour (s.window ++ [v]) ∧
      t.window.length = min (s.window.length + 1) 4 ∧ t.rpmAvg.toNat = t.window.sum / t.window.length

/-- 10_state.md section 9, 93_implementation_defined.md: the invariants hold at reset, for every configuration. -/
def Obligations.InvariantsAtReset : Prop := State.reset.Inv ∧ ∀ c : Cfg, (State.resetWith c).Inv

/-- R40 to R44: every step keeps the invariants together. -/
def Obligations.StepKeepsInvariants : Prop := ∀ s t : State, s.Inv → step s = .next t → t.Inv

/-- 42_filter.md R83: no command decreases FILL, and none makes a valid entry invalid. -/
def Obligations.NoCommandDecreasesFill : Prop :=
  ∀ (s t : State) (cw : Word) (rest : List HostInput), s.pending = .command cw :: rest → s.fill.toNat ≤ 4 →
    step s = .next t → s.fill.toNat ≤ t.fill.toNat ∧ (s.full = true → t.full = true)

/-- 20_memory.md R51: two RDs with no command between them return the same value, and neither changes any register. -/
def Obligations.ReadIsIdempotent : Prop :=
  ∀ (sel : Selector) (s : State), sel.toNat ≠ 15 → ∃ t, exec (.rd sel) s = .next t ∧ exec (.rd sel) t = .next t ∧
    s.SameRamp t ∧ s.SameFilter t ∧ s.SameSticky t ∧ t.cfg = s.cfg

/-- 00_scope.md section 1 (R3): no ramp state is read by the estimator or filter, and no estimator or filter state is read by
the ramp controller: each path's registers, and the results of its commands, follow from its own registers alone. -/
def Obligations.PathsShareNoState : Prop :=
  ∀ (i : Instr) (s s' : State), s.cfg = s'.cfg → ∃ t t', exec i s = .next t ∧ exec i s' = .next t' ∧
    (s.SameFilter s' → t.SameFilter t' ∧
      (i.mnemonic ∈ ["EST", "FPUSH", "SAMPLE"] → t.rcode = t'.rcode ∧ t.rdata = t'.rdata)) ∧
    (s.SameRamp s' → t.SameRamp t' ∧
      (i.mnemonic ∈ ["SETD", "RAMP", "TICK"] → t.rcode = t'.rcode ∧ t.rdata = t'.rdata))

/-! ## Several steps -/

/-- 43_ramp.md R92, for the ramp steps RAMP runs: `n` of them with DESIRED not changed move ACTUAL by `n` units toward
DESIRED, never past it, and leave it there. The stream that `present` and `pending` speak of is the model's choice (log 3). -/
def Obligations.RampConverges : Prop :=
  ∀ (n : Nat) (s : State), ∃ t, (s.present (List.replicate n .ramp)).run n = .next t ∧ t.desired = s.desired ∧
    t.pending = s.pending ∧
    t.actual.toNat = if s.actual.toNat ≤ s.desired.toNat then min s.desired.toNat (s.actual.toNat + n)
      else max s.desired.toNat (s.actual.toNat - n)

/-- 70_reset_and_hazards.md R137, from the prescaler values of R42: under TICK pacing, ACTUAL reaches DESIRED at TICK number
(50 - r)/10 + 5 * (|DESIRED - ACTUAL| - 1), not before, and stays there. The stream that `present` speaks of is the model's
choice (log 3). -/
def Obligations.TimeToTarget : Prop :=
  ∀ (n : Nat) (s : State), s.Prescaler → s.actual ≠ s.desired →
    ∃ t, (s.present (List.replicate n .tick)).run n = .next t ∧ t.desired = s.desired ∧
      (t.actual = t.desired ↔
        (50 - s.rampTimer.toNat) / 10 +
          5 * ((s.desired.toNat - s.actual.toNat) + (s.actual.toNat - s.desired.toNat) - 1) ≤ n)

/-- 43_ramp.md R95: a SETD takes effect at the next ramp step's comparison, and a rejected one has no effect on the ramp. -/
def Obligations.SetdActsAtNextRampStep : Prop :=
  ∀ (v : Imm) (s : State), ∃ t u, exec (.setd v) s = .next t ∧ exec .ramp t = .next u ∧
    t.actual = s.actual ∧ t.duty = s.duty ∧ t.rampTimer = s.rampTimer ∧ t.events = s.events ∧
    (u.actual.toNat : Int) = towards s.actual.toNat (if v.toNat ≤ 100 then v.toNat else s.desired.toNat)

/-- 60_exceptions.md R119: while every SETD is for a value up to 100, no step answers RANGE or sets RERR. -/
def Obligations.ConformingHostGetsNoRangeError : Prop :=
  ∀ (s t : State) (cw : Word) (rest : List HostInput), s.pending = .command cw :: rest →
    (∀ v : Imm, decode cw = .ok (.setd v) → v.toNat ≤ 100) → step s = .next t →
    t.rcode ≠ .range ∧ (t.rerr = true → s.rerr = true)

/-- 60_exceptions.md R115, R119, 70_reset_and_hazards.md R134: one iteration of a conforming host completes, raises no error,
advances the prescaler by one TICK, and its SETD is seen by that iteration's TICK if it fires. With a SAMPLE in it, RPM_EST is
that count's estimate and FILL rises up to 4; with none, the estimator and the filter are unchanged. The stream is the model's
choice (log 3), and so is the order of the two telemetry reads (log 11). -/
def Obligations.ConformingIteration : Prop :=
  ∀ (it : HostIteration) (s : State), it.conforms = true → s.Prescaler →
    ∃ t, (s.present it.commands).run it.commands.length = .next t ∧ t.pending = s.pending ∧ t.cfg = s.cfg ∧
      s.SameSticky t ∧ t.rcode = .ok ∧
      t.desired.toNat = (match it.setd with | some v => v.toNat | none => s.desired.toNat) ∧
      (if s.rampTimer.toNat = 40 then
        t.rampTimer = 0 ∧ (t.actual.toNat : Int) = towards s.actual.toNat t.desired.toNat ∧
          t.events = s.events ++ [t.duty]
      else t.rampTimer.toNat = s.rampTimer.toNat + 10 ∧ t.actual = s.actual ∧ t.events = s.events) ∧
      (match it.sample with
        | some (p, _) => t.rpmEst.toNat = p.toNat * 60 / s.cfg.ppr.toNat ∧ t.fill.toNat = min (s.fill.toNat + 1) 4
        | none => s.SameFilter t)
end

