-- ==== Sys2Proof/Laws/Decode.lean ====
section
/-! SUPPORT. The fields of a command word as numbers, and the fields of an assembled word. -/

namespace Sys2Proof

theorem Field.opc_toNat (cw : Word) : (Field.opc cw).toNat = cw.toNat / 2 ^ 28 := by
  have := cw.isLt
  simp only [Field.opc, BitVec.extractLsb'_toNat, Nat.shiftRight_eq_div_pow]
  omega

theorem Field.rsv_toNat (cw : Word) : (Field.rsv cw).toNat = cw.toNat / 2 ^ 24 % 16 := by
  simp only [Field.rsv, BitVec.extractLsb'_toNat, Nat.shiftRight_eq_div_pow]

theorem Field.imm_toNat (cw : Word) : (Field.imm cw).toNat = cw.toNat % 2 ^ 24 := by
  simp only [Field.imm, BitVec.extractLsb'_toNat, Nat.shiftRight_zero]

theorem Field.mbz_toNat (cw : Word) : (Field.mbz cw).toNat = cw.toNat / 2 ^ 4 % 2 ^ 20 := by
  simp only [Field.mbz, BitVec.extractLsb'_toNat, Nat.shiftRight_eq_div_pow]

theorem Field.sel_toNat (cw : Word) : (Field.sel cw).toNat = cw.toNat % 2 ^ 4 := by
  simp only [Field.sel, BitVec.extractLsb'_toNat, Nat.shiftRight_zero]

/-- The value of the word `{OPC, 0000, IMM}`. -/
theorem Field.word_toNat (o : BitVec 4) (v : Imm) : (Field.word o v).toNat = o.toNat * 2 ^ 28 + v.toNat := by
  have := v.isLt
  simp only [Field.word, BitVec.toNat_append, BitVec.toNat_ofNat, Nat.zero_mod, Nat.or_zero]
  rw [← Nat.shiftLeft_add_eq_or_of_lt v.isLt]
  simp only [Nat.shiftLeft_eq]
  omega

@[simp] theorem Field.opc_word (o : BitVec 4) (v : Imm) : Field.opc (Field.word o v) = o := by
  apply BitVec.eq_of_toNat_eq
  have := v.isLt
  rw [Field.opc_toNat, Field.word_toNat]; omega

@[simp] theorem Field.rsv_word (o : BitVec 4) (v : Imm) : Field.rsv (Field.word o v) = 0#4 := by
  apply BitVec.eq_of_toNat_eq
  have := v.isLt
  rw [Field.rsv_toNat, Field.word_toNat, BitVec.toNat_ofNat]; omega

@[simp] theorem Field.imm_word (o : BitVec 4) (v : Imm) : Field.imm (Field.word o v) = v := by
  apply BitVec.eq_of_toNat_eq
  have := v.isLt
  rw [Field.imm_toNat, Field.word_toNat]; omega

/-- A word with zero in RSV is assembled from its OPC and IMM. -/
theorem Field.word_of_fields (cw : Word) (h : (Field.rsv cw).toNat = 0) :
    Field.word (Field.opc cw) (Field.imm cw) = cw := by
  apply BitVec.eq_of_toNat_eq
  rw [Field.word_toNat, Field.opc_toNat, Field.imm_toNat]
  rw [Field.rsv_toNat] at h
  omega

/-- A format S immediate with zero in bits 23:4 is its selector. -/
theorem Field.imm_of_sel (cw : Word) (h : (Field.mbz cw).toNat = 0) :
    (Field.sel cw).setWidth 24 = Field.imm cw := by
  apply BitVec.eq_of_toNat_eq
  rw [Field.mbz_toNat] at h
  rw [BitVec.toNat_setWidth, Field.sel_toNat, Field.imm_toNat]
  omega

/-! ### The masks of the opcode map -/

/-- A mask that keeps the bits from `k` up keeps the value above them. -/
theorem mask_high_toNat (cw m : Word) (k : Nat) (hm : m = BitVec.allOnes 32 <<< k) :
    (cw &&& m).toNat = cw.toNat / 2 ^ k * 2 ^ k := by
  have h : cw &&& m = (cw >>> k) <<< k := by
    subst hm
    ext j hj
    simp only [BitVec.getElem_and, BitVec.getElem_shiftLeft, BitVec.getElem_ushiftRight, BitVec.getElem_allOnes]
    by_cases h : j < k
    · simp [h]
    · simp [h, show k + (j - k) = j by omega, BitVec.getLsbD_eq_getElem hj]
  have hle := Nat.div_mul_le_self cw.toNat (2 ^ k)
  rw [h, BitVec.toNat_shiftLeft, BitVec.toNat_ushiftRight, Nat.shiftLeft_eq, Nat.shiftRight_eq_div_pow,
    Nat.mod_eq_of_lt (Nat.lt_of_le_of_lt hle cw.isLt)]

theorem mask_formatI_toNat (cw : Word) : (cw &&& 0xFF000000).toNat = cw.toNat / 2 ^ 24 * 2 ^ 24 :=
  mask_high_toNat cw _ 24 (by decide)

theorem mask_formatS_toNat (cw : Word) : (cw &&& 0xFFFFFFF0).toNat = cw.toNat / 2 ^ 4 * 2 ^ 4 :=
  mask_high_toNat cw _ 4 (by decide)

theorem mask_formatN (cw : Word) : cw &&& 0xFFFFFFFF = cw := by
  have h : (0xFFFFFFFF : Word) = BitVec.allOnes 32 := by decide
  rw [h, BitVec.and_allOnes]

end Sys2Proof
end

