-- ==== Sys2Proof/Laws/State.lean ====
section
/-! SUPPORT. One lemma per field per update of State, so that no proof unfolds a record update. -/

namespace Sys2Proof.Machine

variable (s : State)

/-! ### respond -/

@[simp] theorem State.respond_cfg (code : RCode) (data : Word) : (s.respond code data).cfg = s.cfg := rfl
@[simp] theorem State.respond_desired (code : RCode) (data : Word) : (s.respond code data).desired = s.desired := rfl
@[simp] theorem State.respond_actual (code : RCode) (data : Word) : (s.respond code data).actual = s.actual := rfl
@[simp] theorem State.respond_duty (code : RCode) (data : Word) : (s.respond code data).duty = s.duty := rfl
@[simp] theorem State.respond_rpmEst (code : RCode) (data : Word) : (s.respond code data).rpmEst = s.rpmEst := rfl
@[simp] theorem State.respond_rpmAvg (code : RCode) (data : Word) : (s.respond code data).rpmAvg = s.rpmAvg := rfl
@[simp] theorem State.respond_hist (code : RCode) (data : Word) : (s.respond code data).hist = s.hist := rfl
@[simp] theorem State.respond_widx (code : RCode) (data : Word) : (s.respond code data).widx = s.widx := rfl
@[simp] theorem State.respond_fill (code : RCode) (data : Word) : (s.respond code data).fill = s.fill := rfl
@[simp] theorem State.respond_rampTimer (code : RCode) (data : Word) :
    (s.respond code data).rampTimer = s.rampTimer := rfl
@[simp] theorem State.respond_rerr (code : RCode) (data : Word) : (s.respond code data).rerr = s.rerr := rfl
@[simp] theorem State.respond_ill (code : RCode) (data : Word) : (s.respond code data).ill = s.ill := rfl
@[simp] theorem State.respond_rcode (code : RCode) (data : Word) : (s.respond code data).rcode = code := rfl
@[simp] theorem State.respond_rdata (code : RCode) (data : Word) : (s.respond code data).rdata = data := rfl
@[simp] theorem State.respond_actWe (code : RCode) (data : Word) : (s.respond code data).actWe = s.actWe := rfl
@[simp] theorem State.respond_events (code : RCode) (data : Word) : (s.respond code data).events = s.events := rfl
@[simp] theorem State.respond_pending (code : RCode) (data : Word) : (s.respond code data).pending = s.pending := rfl

/-! ### setSticky -/

@[simp] theorem State.setSticky_cfg (e : BlockError) : (s.setSticky e).cfg = s.cfg := by cases e <;> rfl
@[simp] theorem State.setSticky_desired (e : BlockError) : (s.setSticky e).desired = s.desired := by cases e <;> rfl
@[simp] theorem State.setSticky_actual (e : BlockError) : (s.setSticky e).actual = s.actual := by cases e <;> rfl
@[simp] theorem State.setSticky_duty (e : BlockError) : (s.setSticky e).duty = s.duty := by cases e <;> rfl
@[simp] theorem State.setSticky_rpmEst (e : BlockError) : (s.setSticky e).rpmEst = s.rpmEst := by cases e <;> rfl
@[simp] theorem State.setSticky_rpmAvg (e : BlockError) : (s.setSticky e).rpmAvg = s.rpmAvg := by cases e <;> rfl
@[simp] theorem State.setSticky_hist (e : BlockError) : (s.setSticky e).hist = s.hist := by cases e <;> rfl
@[simp] theorem State.setSticky_widx (e : BlockError) : (s.setSticky e).widx = s.widx := by cases e <;> rfl
@[simp] theorem State.setSticky_fill (e : BlockError) : (s.setSticky e).fill = s.fill := by cases e <;> rfl
@[simp] theorem State.setSticky_rampTimer (e : BlockError) :
    (s.setSticky e).rampTimer = s.rampTimer := by cases e <;> rfl
@[simp] theorem State.setSticky_rerr (e : BlockError) :
    (s.setSticky e).rerr = (s.rerr || e == .rangeError) := by cases e <;> simp [State.setSticky]
@[simp] theorem State.setSticky_ill (e : BlockError) :
    (s.setSticky e).ill = (s.ill || e == .illegal) := by cases e <;> simp [State.setSticky]
@[simp] theorem State.setSticky_rcode (e : BlockError) : (s.setSticky e).rcode = s.rcode := by cases e <;> rfl
@[simp] theorem State.setSticky_rdata (e : BlockError) : (s.setSticky e).rdata = s.rdata := by cases e <;> rfl
@[simp] theorem State.setSticky_actWe (e : BlockError) : (s.setSticky e).actWe = s.actWe := by cases e <;> rfl
@[simp] theorem State.setSticky_events (e : BlockError) : (s.setSticky e).events = s.events := by cases e <;> rfl
@[simp] theorem State.setSticky_pending (e : BlockError) : (s.setSticky e).pending = s.pending := by cases e <;> rfl

/-! ### clearSticky -/

@[simp] theorem State.clearSticky_cfg : s.clearSticky.cfg = s.cfg := rfl
@[simp] theorem State.clearSticky_desired : s.clearSticky.desired = s.desired := rfl
@[simp] theorem State.clearSticky_actual : s.clearSticky.actual = s.actual := rfl
@[simp] theorem State.clearSticky_duty : s.clearSticky.duty = s.duty := rfl
@[simp] theorem State.clearSticky_rpmEst : s.clearSticky.rpmEst = s.rpmEst := rfl
@[simp] theorem State.clearSticky_rpmAvg : s.clearSticky.rpmAvg = s.rpmAvg := rfl
@[simp] theorem State.clearSticky_hist : s.clearSticky.hist = s.hist := rfl
@[simp] theorem State.clearSticky_widx : s.clearSticky.widx = s.widx := rfl
@[simp] theorem State.clearSticky_fill : s.clearSticky.fill = s.fill := rfl
@[simp] theorem State.clearSticky_rampTimer : s.clearSticky.rampTimer = s.rampTimer := rfl
@[simp] theorem State.clearSticky_rerr : s.clearSticky.rerr = false := rfl
@[simp] theorem State.clearSticky_ill : s.clearSticky.ill = false := rfl
@[simp] theorem State.clearSticky_rcode : s.clearSticky.rcode = s.rcode := rfl
@[simp] theorem State.clearSticky_rdata : s.clearSticky.rdata = s.rdata := rfl
@[simp] theorem State.clearSticky_actWe : s.clearSticky.actWe = s.actWe := rfl
@[simp] theorem State.clearSticky_events : s.clearSticky.events = s.events := rfl
@[simp] theorem State.clearSticky_pending : s.clearSticky.pending = s.pending := rfl

/-! ### raise -/

@[simp] theorem State.raise_cfg (e : BlockError) : (s.raise e).cfg = s.cfg := by cases e <;> rfl
@[simp] theorem State.raise_desired (e : BlockError) : (s.raise e).desired = s.desired := by cases e <;> rfl
@[simp] theorem State.raise_actual (e : BlockError) : (s.raise e).actual = s.actual := by cases e <;> rfl
@[simp] theorem State.raise_duty (e : BlockError) : (s.raise e).duty = s.duty := by cases e <;> rfl
@[simp] theorem State.raise_rpmEst (e : BlockError) : (s.raise e).rpmEst = s.rpmEst := by cases e <;> rfl
@[simp] theorem State.raise_rpmAvg (e : BlockError) : (s.raise e).rpmAvg = s.rpmAvg := by cases e <;> rfl
@[simp] theorem State.raise_hist (e : BlockError) : (s.raise e).hist = s.hist := by cases e <;> rfl
@[simp] theorem State.raise_widx (e : BlockError) : (s.raise e).widx = s.widx := by cases e <;> rfl
@[simp] theorem State.raise_fill (e : BlockError) : (s.raise e).fill = s.fill := by cases e <;> rfl
@[simp] theorem State.raise_rampTimer (e : BlockError) : (s.raise e).rampTimer = s.rampTimer := by cases e <;> rfl
@[simp] theorem State.raise_rerr (e : BlockError) :
    (s.raise e).rerr = (s.rerr || e == .rangeError) := by cases e <;> simp [State.raise, State.respond, State.setSticky]
@[simp] theorem State.raise_ill (e : BlockError) :
    (s.raise e).ill = (s.ill || e == .illegal) := by cases e <;> simp [State.raise, State.respond, State.setSticky]
@[simp] theorem State.raise_rcode (e : BlockError) : (s.raise e).rcode = errorCode e := by cases e <;> rfl
@[simp] theorem State.raise_rdata (e : BlockError) : (s.raise e).rdata = s.errorData e := by cases e <;> rfl
@[simp] theorem State.raise_actWe (e : BlockError) : (s.raise e).actWe = s.actWe := by cases e <;> rfl
@[simp] theorem State.raise_events (e : BlockError) : (s.raise e).events = s.events := by cases e <;> rfl
@[simp] theorem State.raise_pending (e : BlockError) : (s.raise e).pending = s.pending := by cases e <;> rfl

/-! ### accept -/

@[simp] theorem State.accept_cfg (rest : List HostInput) : (s.accept rest).cfg = s.cfg := rfl
@[simp] theorem State.accept_desired (rest : List HostInput) : (s.accept rest).desired = s.desired := rfl
@[simp] theorem State.accept_actual (rest : List HostInput) : (s.accept rest).actual = s.actual := rfl
@[simp] theorem State.accept_duty (rest : List HostInput) : (s.accept rest).duty = s.duty := rfl
@[simp] theorem State.accept_rpmEst (rest : List HostInput) : (s.accept rest).rpmEst = s.rpmEst := rfl
@[simp] theorem State.accept_rpmAvg (rest : List HostInput) : (s.accept rest).rpmAvg = s.rpmAvg := rfl
@[simp] theorem State.accept_hist (rest : List HostInput) : (s.accept rest).hist = s.hist := rfl
@[simp] theorem State.accept_widx (rest : List HostInput) : (s.accept rest).widx = s.widx := rfl
@[simp] theorem State.accept_fill (rest : List HostInput) : (s.accept rest).fill = s.fill := rfl
@[simp] theorem State.accept_rampTimer (rest : List HostInput) : (s.accept rest).rampTimer = s.rampTimer := rfl
@[simp] theorem State.accept_rerr (rest : List HostInput) : (s.accept rest).rerr = s.rerr := rfl
@[simp] theorem State.accept_ill (rest : List HostInput) : (s.accept rest).ill = s.ill := rfl
@[simp] theorem State.accept_rcode (rest : List HostInput) : (s.accept rest).rcode = s.rcode := rfl
@[simp] theorem State.accept_rdata (rest : List HostInput) : (s.accept rest).rdata = s.rdata := rfl
@[simp] theorem State.accept_actWe (rest : List HostInput) : (s.accept rest).actWe = false := rfl
@[simp] theorem State.accept_events (rest : List HostInput) : (s.accept rest).events = s.events := rfl
@[simp] theorem State.accept_pending (rest : List HostInput) : (s.accept rest).pending = rest := rfl

/-! ### writeEst -/

@[simp] theorem State.writeEst_cfg (r : Word) : (s.writeEst r).cfg = s.cfg := rfl
@[simp] theorem State.writeEst_desired (r : Word) : (s.writeEst r).desired = s.desired := rfl
@[simp] theorem State.writeEst_actual (r : Word) : (s.writeEst r).actual = s.actual := rfl
@[simp] theorem State.writeEst_duty (r : Word) : (s.writeEst r).duty = s.duty := rfl
@[simp] theorem State.writeEst_rpmEst (r : Word) : (s.writeEst r).rpmEst = r := rfl
@[simp] theorem State.writeEst_rpmAvg (r : Word) : (s.writeEst r).rpmAvg = s.rpmAvg := rfl
@[simp] theorem State.writeEst_hist (r : Word) : (s.writeEst r).hist = s.hist := rfl
@[simp] theorem State.writeEst_widx (r : Word) : (s.writeEst r).widx = s.widx := rfl
@[simp] theorem State.writeEst_fill (r : Word) : (s.writeEst r).fill = s.fill := rfl
@[simp] theorem State.writeEst_rampTimer (r : Word) : (s.writeEst r).rampTimer = s.rampTimer := rfl
@[simp] theorem State.writeEst_rerr (r : Word) : (s.writeEst r).rerr = s.rerr := rfl
@[simp] theorem State.writeEst_ill (r : Word) : (s.writeEst r).ill = s.ill := rfl
@[simp] theorem State.writeEst_rcode (r : Word) : (s.writeEst r).rcode = s.rcode := rfl
@[simp] theorem State.writeEst_rdata (r : Word) : (s.writeEst r).rdata = s.rdata := rfl
@[simp] theorem State.writeEst_actWe (r : Word) : (s.writeEst r).actWe = s.actWe := rfl
@[simp] theorem State.writeEst_events (r : Word) : (s.writeEst r).events = s.events := rfl
@[simp] theorem State.writeEst_pending (r : Word) : (s.writeEst r).pending = s.pending := rfl

/-! ### push -/

@[simp] theorem State.push_cfg (v : Word) : (s.push v).cfg = s.cfg := rfl
@[simp] theorem State.push_desired (v : Word) : (s.push v).desired = s.desired := rfl
@[simp] theorem State.push_actual (v : Word) : (s.push v).actual = s.actual := rfl
@[simp] theorem State.push_duty (v : Word) : (s.push v).duty = s.duty := rfl
@[simp] theorem State.push_rpmEst (v : Word) : (s.push v).rpmEst = s.rpmEst := rfl
@[simp] theorem State.push_rpmAvg (v : Word) : (s.push v).rpmAvg = s.rpmAvg := rfl
@[simp] theorem State.push_hist (v : Word) : (s.push v).hist = s.hist.set s.widx.toNat v s.widx.isLt := rfl
@[simp] theorem State.push_widx (v : Word) : (s.push v).widx = s.widx + 1#2 := rfl
@[simp] theorem State.push_fill (v : Word) : (s.push v).fill = BitVec.ofNat 3 (min (s.fill.toNat + 1) 4) := rfl
@[simp] theorem State.push_rampTimer (v : Word) : (s.push v).rampTimer = s.rampTimer := rfl
@[simp] theorem State.push_rerr (v : Word) : (s.push v).rerr = s.rerr := rfl
@[simp] theorem State.push_ill (v : Word) : (s.push v).ill = s.ill := rfl
@[simp] theorem State.push_rcode (v : Word) : (s.push v).rcode = s.rcode := rfl
@[simp] theorem State.push_rdata (v : Word) : (s.push v).rdata = s.rdata := rfl
@[simp] theorem State.push_actWe (v : Word) : (s.push v).actWe = s.actWe := rfl
@[simp] theorem State.push_events (v : Word) : (s.push v).events = s.events := rfl
@[simp] theorem State.push_pending (v : Word) : (s.push v).pending = s.pending := rfl

/-! ### pushAverage -/

@[simp] theorem State.pushAverage_cfg (v : Word) : (s.pushAverage v).cfg = s.cfg := rfl
@[simp] theorem State.pushAverage_desired (v : Word) : (s.pushAverage v).desired = s.desired := rfl
@[simp] theorem State.pushAverage_actual (v : Word) : (s.pushAverage v).actual = s.actual := rfl
@[simp] theorem State.pushAverage_duty (v : Word) : (s.pushAverage v).duty = s.duty := rfl
@[simp] theorem State.pushAverage_rpmEst (v : Word) : (s.pushAverage v).rpmEst = s.rpmEst := rfl
@[simp] theorem State.pushAverage_rpmAvg (v : Word) :
    (s.pushAverage v).rpmAvg = BitVec.ofNat 32 (s.push v).average := rfl
@[simp] theorem State.pushAverage_hist (v : Word) : (s.pushAverage v).hist = (s.push v).hist := rfl
@[simp] theorem State.pushAverage_widx (v : Word) : (s.pushAverage v).widx = (s.push v).widx := rfl
@[simp] theorem State.pushAverage_fill (v : Word) : (s.pushAverage v).fill = (s.push v).fill := rfl
@[simp] theorem State.pushAverage_rampTimer (v : Word) : (s.pushAverage v).rampTimer = s.rampTimer := rfl
@[simp] theorem State.pushAverage_rerr (v : Word) : (s.pushAverage v).rerr = s.rerr := rfl
@[simp] theorem State.pushAverage_ill (v : Word) : (s.pushAverage v).ill = s.ill := rfl
@[simp] theorem State.pushAverage_rcode (v : Word) : (s.pushAverage v).rcode = s.rcode := rfl
@[simp] theorem State.pushAverage_rdata (v : Word) : (s.pushAverage v).rdata = s.rdata := rfl
@[simp] theorem State.pushAverage_actWe (v : Word) : (s.pushAverage v).actWe = s.actWe := rfl
@[simp] theorem State.pushAverage_events (v : Word) : (s.pushAverage v).events = s.events := rfl
@[simp] theorem State.pushAverage_pending (v : Word) : (s.pushAverage v).pending = s.pending := rfl

/-! ### emitActuatorWrite -/

@[simp] theorem State.emitActuatorWrite_cfg : s.emitActuatorWrite.cfg = s.cfg := rfl
@[simp] theorem State.emitActuatorWrite_desired : s.emitActuatorWrite.desired = s.desired := rfl
@[simp] theorem State.emitActuatorWrite_actual : s.emitActuatorWrite.actual = s.actual := rfl
@[simp] theorem State.emitActuatorWrite_duty : s.emitActuatorWrite.duty = s.duty := rfl
@[simp] theorem State.emitActuatorWrite_rpmEst : s.emitActuatorWrite.rpmEst = s.rpmEst := rfl
@[simp] theorem State.emitActuatorWrite_rpmAvg : s.emitActuatorWrite.rpmAvg = s.rpmAvg := rfl
@[simp] theorem State.emitActuatorWrite_hist : s.emitActuatorWrite.hist = s.hist := rfl
@[simp] theorem State.emitActuatorWrite_widx : s.emitActuatorWrite.widx = s.widx := rfl
@[simp] theorem State.emitActuatorWrite_fill : s.emitActuatorWrite.fill = s.fill := rfl
@[simp] theorem State.emitActuatorWrite_rampTimer : s.emitActuatorWrite.rampTimer = s.rampTimer := rfl
@[simp] theorem State.emitActuatorWrite_rerr : s.emitActuatorWrite.rerr = s.rerr := rfl
@[simp] theorem State.emitActuatorWrite_ill : s.emitActuatorWrite.ill = s.ill := rfl
@[simp] theorem State.emitActuatorWrite_rcode : s.emitActuatorWrite.rcode = s.rcode := rfl
@[simp] theorem State.emitActuatorWrite_rdata : s.emitActuatorWrite.rdata = s.rdata := rfl
@[simp] theorem State.emitActuatorWrite_actWe : s.emitActuatorWrite.actWe = true := rfl
@[simp] theorem State.emitActuatorWrite_events : s.emitActuatorWrite.events = s.events ++ [s.duty] := rfl
@[simp] theorem State.emitActuatorWrite_pending : s.emitActuatorWrite.pending = s.pending := rfl

/-! ### rampStep -/

@[simp] theorem State.rampStep_cfg : s.rampStep.cfg = s.cfg := rfl
@[simp] theorem State.rampStep_desired : s.rampStep.desired = s.desired := rfl
@[simp] theorem State.rampStep_actual : s.rampStep.actual = stepToward s.actual s.desired := rfl
@[simp] theorem State.rampStep_duty : s.rampStep.duty = dutyOf s.cfg (stepToward s.actual s.desired) := rfl
@[simp] theorem State.rampStep_rpmEst : s.rampStep.rpmEst = s.rpmEst := rfl
@[simp] theorem State.rampStep_rpmAvg : s.rampStep.rpmAvg = s.rpmAvg := rfl
@[simp] theorem State.rampStep_hist : s.rampStep.hist = s.hist := rfl
@[simp] theorem State.rampStep_widx : s.rampStep.widx = s.widx := rfl
@[simp] theorem State.rampStep_fill : s.rampStep.fill = s.fill := rfl
@[simp] theorem State.rampStep_rampTimer : s.rampStep.rampTimer = s.rampTimer := rfl
@[simp] theorem State.rampStep_rerr : s.rampStep.rerr = s.rerr := rfl
@[simp] theorem State.rampStep_ill : s.rampStep.ill = s.ill := rfl
@[simp] theorem State.rampStep_rcode : s.rampStep.rcode = s.rcode := rfl
@[simp] theorem State.rampStep_rdata : s.rampStep.rdata = s.rdata := rfl
@[simp] theorem State.rampStep_actWe : s.rampStep.actWe = true := rfl
@[simp] theorem State.rampStep_events :
    s.rampStep.events = s.events ++ [dutyOf s.cfg (stepToward s.actual s.desired)] := rfl
@[simp] theorem State.rampStep_pending : s.rampStep.pending = s.pending := rfl

/-! ### writeTimer -/

@[simp] theorem State.writeTimer_cfg (t : BitVec 8) : (s.writeTimer t).cfg = s.cfg := rfl
@[simp] theorem State.writeTimer_desired (t : BitVec 8) : (s.writeTimer t).desired = s.desired := rfl
@[simp] theorem State.writeTimer_actual (t : BitVec 8) : (s.writeTimer t).actual = s.actual := rfl
@[simp] theorem State.writeTimer_duty (t : BitVec 8) : (s.writeTimer t).duty = s.duty := rfl
@[simp] theorem State.writeTimer_rpmEst (t : BitVec 8) : (s.writeTimer t).rpmEst = s.rpmEst := rfl
@[simp] theorem State.writeTimer_rpmAvg (t : BitVec 8) : (s.writeTimer t).rpmAvg = s.rpmAvg := rfl
@[simp] theorem State.writeTimer_hist (t : BitVec 8) : (s.writeTimer t).hist = s.hist := rfl
@[simp] theorem State.writeTimer_widx (t : BitVec 8) : (s.writeTimer t).widx = s.widx := rfl
@[simp] theorem State.writeTimer_fill (t : BitVec 8) : (s.writeTimer t).fill = s.fill := rfl
@[simp] theorem State.writeTimer_rampTimer (t : BitVec 8) : (s.writeTimer t).rampTimer = t := rfl
@[simp] theorem State.writeTimer_rerr (t : BitVec 8) : (s.writeTimer t).rerr = s.rerr := rfl
@[simp] theorem State.writeTimer_ill (t : BitVec 8) : (s.writeTimer t).ill = s.ill := rfl
@[simp] theorem State.writeTimer_rcode (t : BitVec 8) : (s.writeTimer t).rcode = s.rcode := rfl
@[simp] theorem State.writeTimer_rdata (t : BitVec 8) : (s.writeTimer t).rdata = s.rdata := rfl
@[simp] theorem State.writeTimer_actWe (t : BitVec 8) : (s.writeTimer t).actWe = s.actWe := rfl
@[simp] theorem State.writeTimer_events (t : BitVec 8) : (s.writeTimer t).events = s.events := rfl
@[simp] theorem State.writeTimer_pending (t : BitVec 8) : (s.writeTimer t).pending = s.pending := rfl

/-! ### writeDesired -/

@[simp] theorem State.writeDesired_cfg (v : BitVec 7) : (s.writeDesired v).cfg = s.cfg := rfl
@[simp] theorem State.writeDesired_desired (v : BitVec 7) : (s.writeDesired v).desired = v := rfl
@[simp] theorem State.writeDesired_actual (v : BitVec 7) : (s.writeDesired v).actual = s.actual := rfl
@[simp] theorem State.writeDesired_duty (v : BitVec 7) : (s.writeDesired v).duty = s.duty := rfl
@[simp] theorem State.writeDesired_rpmEst (v : BitVec 7) : (s.writeDesired v).rpmEst = s.rpmEst := rfl
@[simp] theorem State.writeDesired_rpmAvg (v : BitVec 7) : (s.writeDesired v).rpmAvg = s.rpmAvg := rfl
@[simp] theorem State.writeDesired_hist (v : BitVec 7) : (s.writeDesired v).hist = s.hist := rfl
@[simp] theorem State.writeDesired_widx (v : BitVec 7) : (s.writeDesired v).widx = s.widx := rfl
@[simp] theorem State.writeDesired_fill (v : BitVec 7) : (s.writeDesired v).fill = s.fill := rfl
@[simp] theorem State.writeDesired_rampTimer (v : BitVec 7) : (s.writeDesired v).rampTimer = s.rampTimer := rfl
@[simp] theorem State.writeDesired_rerr (v : BitVec 7) : (s.writeDesired v).rerr = s.rerr := rfl
@[simp] theorem State.writeDesired_ill (v : BitVec 7) : (s.writeDesired v).ill = s.ill := rfl
@[simp] theorem State.writeDesired_rcode (v : BitVec 7) : (s.writeDesired v).rcode = s.rcode := rfl
@[simp] theorem State.writeDesired_rdata (v : BitVec 7) : (s.writeDesired v).rdata = s.rdata := rfl
@[simp] theorem State.writeDesired_actWe (v : BitVec 7) : (s.writeDesired v).actWe = s.actWe := rfl
@[simp] theorem State.writeDesired_events (v : BitVec 7) : (s.writeDesired v).events = s.events := rfl
@[simp] theorem State.writeDesired_pending (v : BitVec 7) : (s.writeDesired v).pending = s.pending := rfl

end Sys2Proof.Machine
end

