-- ==== Sys2Proof/Laws/Ops.lean ====
section
/-! SUPPORT. What each shared operation does, in the values of the registers. -/

namespace Sys2Proof.Machine

/-! ### Operands and STATUS -/

@[simp] theorem immValue_toNat (v : Imm) : (immValue v).toNat = v.toNat := by
  have := v.isLt
  simp only [immValue, BitVec.toNat_setWidth]
  omega

/-- The low 7 bits of an operand up to 100 are the operand. -/
theorem speed_toNat (v : Imm) (h : v.toNat ≤ 100) : (v.extractLsb' 0 7).toNat = v.toNat := by
  simp only [BitVec.extractLsb'_toNat, Nat.shiftRight_zero]
  omega

theorem toNat_ofBool_eq (b : Bool) : (BitVec.ofBool b).toNat = b.toNat := by cases b <;> rfl

/-- STATUS as a number: RERR, ILL, FULL, ATTGT in bits 0 to 3, zero above. -/
theorem statusWord_toNat (s : State) : s.statusWord.toNat =
    s.rerr.toNat + 2 * s.ill.toNat + 4 * s.full.toNat + 8 * s.atTarget.toNat := by
  simp only [State.statusWord]
  cases s.rerr <;> cases s.ill <;> cases s.full <;> cases s.atTarget <;> rfl

/-- The motor word as a number: DUTY from bit 16 up, FIRED in bit 8, ACTUAL in bits 6 to 0. -/
theorem motorWord_toNat (s : State) (f : Bool) :
    (s.motorWord f).toNat = s.duty.toNat * 2 ^ 16 + f.toNat * 2 ^ 8 + s.actual.toNat := by
  have ha := s.actual.isLt
  have hf : f.toNat < 2 := by cases f <;> decide
  simp only [State.motorWord, BitVec.toNat_append, toNat_ofBool_eq, BitVec.toNat_ofNat, Nat.zero_mod, Nat.or_zero]
  rw [← Nat.shiftLeft_add_eq_or_of_lt (by omega : f.toNat < 2 ^ 1), ← Nat.shiftLeft_add_eq_or_of_lt ha]
  simp only [Nat.shiftLeft_eq]
  omega

/-! ### Errors -/

theorem raise_illegal_eq (s : State) : s.raise .illegal = { s with ill := true, rcode := .illegal, rdata := 0 } := rfl

theorem raise_rangeError_eq (s : State) :
    s.raise .rangeError = { s with rerr := true, rcode := .range, rdata := s.desired.setWidth 32 } := rfl

/-! ### The estimator -/

/-- The estimate of a 24-bit count is at most (2^24 - 1) * 60, so it fits RPM_EST (10_state.md R44). -/
theorem estimate_le (c : Cfg) (p : Imm) : estimate c p.toNat ≤ 1006632900 := by
  have hp := p.isLt
  exact Nat.le_trans (Nat.div_le_self _ _) (by simp only [Config.rpmFactor]; omega)

theorem estimate_toNat (c : Cfg) (p : Imm) :
    (BitVec.ofNat 32 (estimate c p.toNat)).toNat = p.toNat * 60 / c.ppr.toNat := by
  have h := estimate_le c p
  rw [BitVec.toNat_ofNat, Nat.mod_eq_of_lt (by omega)]
  rfl

/-! ### The filter -/

theorem push_fill_toNat (s : State) (v : Word) : (s.push v).fill.toNat = min (s.fill.toNat + 1) 4 := by
  simp only [State.push_fill, BitVec.toNat_ofNat]
  omega

theorem push_widx_toNat (s : State) (v : Word) : (s.push v).widx.toNat = (s.widx.toNat + 1) % 4 := by
  simp only [State.push_widx, BitVec.toNat_add, BitVec.toNat_ofNat]

/-- A push writes the slot at WIDX and no other. -/
theorem push_hist_get (s : State) (v : Word) (i : Fin 4) :
    (s.push v).hist[i.val] = if i.val = s.widx.toNat then v else s.hist[i.val] := by
  simp only [State.push_hist, Vector.getElem_set]
  split <;> split <;> first | rfl | omega

/-- A sum of terms, each at most `b`. -/
theorem sum_le_length_mul (l : List Nat) (b : Nat) (h : ∀ x ∈ l, x ≤ b) : l.sum ≤ l.length * b := by
  induction l with
  | nil => simp
  | cons x xs ih =>
    have h1 := h x (by simp)
    have h2 := ih fun y hy => h y (by simp [hy])
    simp only [List.sum_cons, List.length_cons, Nat.add_mul]
    omega

theorem validEntries_length (s : State) : s.validEntries.length = min s.fill.toNat 4 := by
  simp [State.validEntries]

/-- The average is at most any bound of the valid entries. -/
theorem average_le (s : State) (b : Nat) (hf : s.fill.toNat ≤ 4) (h : ∀ w ∈ s.validEntries, w.toNat ≤ b) :
    s.average ≤ b := by
  unfold State.average
  rcases Nat.eq_zero_or_pos s.fill.toNat with h0 | hp
  · simp [h0]
  · have hs := sum_le_length_mul (s.validEntries.map BitVec.toNat) b (by simpa using h)
    rw [List.length_map, validEntries_length, Nat.min_eq_left hf, Nat.mul_comm] at hs
    exact Nat.div_le_of_le_mul (by rw [Nat.mul_comm]; simpa [Nat.mul_comm] using hs)

/-- The average after a push fits RPM_AVG, so nothing is lost in the write (10_state.md R44). -/
theorem average_push_lt (s : State) (v : Word) : (s.push v).average < 2 ^ 32 := by
  have hf := push_fill_toNat s v
  have := average_le (s.push v) (2 ^ 32 - 1) (by omega) fun w _ => by have := w.isLt; omega
  omega

theorem pushAverage_rpmAvg_toNat (s : State) (v : Word) : (s.pushAverage v).rpmAvg.toNat = (s.push v).average := by
  rw [State.pushAverage_rpmAvg, BitVec.toNat_ofNat, Nat.mod_eq_of_lt (average_push_lt s v)]

/-! ### The ramp -/

/-- One ramp step moves ACTUAL by the sign of the distance (43_ramp.md R92). -/
theorem stepToward_toInt (a d : BitVec 7) :
    ((stepToward a d).toNat : Int) = a.toNat + Int.sign ((d.toNat : Int) - a.toNat) := by
  have ha := a.isLt
  have hd := d.isLt
  unfold stepToward
  simp only [BitVec.lt_def]
  split
  · rw [Int.sign_eq_one_of_pos (by omega), BitVec.toNat_add]
    simp only [BitVec.toNat_ofNat]
    omega
  · split
    · rw [Int.sign_eq_neg_one_of_neg (by omega), BitVec.toNat_sub]
      simp only [BitVec.toNat_ofNat]
      omega
    · rw [show (d.toNat : Int) - a.toNat = 0 by omega]
      simp

theorem stepToward_toNat (a d : BitVec 7) : (stepToward a d).toNat =
    if a.toNat < d.toNat then a.toNat + 1 else if d.toNat < a.toNat then a.toNat - 1 else a.toNat := by
  have ha := a.isLt
  have hd := d.isLt
  unfold stepToward
  simp only [BitVec.lt_def]
  split
  · rw [BitVec.toNat_add]; simp only [BitVec.toNat_ofNat]; omega
  · split
    · rw [BitVec.toNat_sub]; simp only [BitVec.toNat_ofNat]; omega
    · rfl

/-- The duty is at most MAX_DUTY (43_ramp.md R87). -/
theorem duty_quotient_le (m a : Nat) : min a 100 * m / 100 ≤ m := by
  apply Nat.div_le_of_le_mul
  exact Nat.mul_le_mul_right m (Nat.min_le_right a 100)

theorem dutyOf_toNat (c : Cfg) (a : BitVec 7) :
    (dutyOf c a).toNat = min a.toNat 100 * c.maxDuty.toNat / 100 := by
  have h := duty_quotient_le c.maxDuty.toNat a.toNat
  have hm := c.maxDuty.isLt
  simp only [dutyOf, Config.maxSpeed]
  rw [BitVec.toNat_ofNat, Nat.mod_eq_of_lt (by omega)]

end Sys2Proof.Machine
end

