-- ==== Sys2Proof/Laws/Dispatch.lean ====
section
/-! SUPPORT. What each meaning answers, as one state built from the shared operations: later proofs cite these and the
lemmas of Laws/State.lean and Laws/Ops.lean, and unfold no meaning. -/

namespace Sys2Proof.Machine

theorem exec_nop (s : State) : exec .nop s = .next (s.respond .ok 0) := rfl

theorem exec_setd_inRange (v : Imm) (s : State) (h : v.toNat ≤ 100) :
    exec (.setd v) s = .next ((s.writeDesired (v.extractLsb' 0 7)).respond .ok (immValue v)) := by
  simp only [exec, execSetd, immValue_toNat, Config.maxSpeed, if_pos h]

theorem exec_setd_outOfRange (v : Imm) (s : State) (h : 100 < v.toNat) :
    exec (.setd v) s = .next (s.raise .rangeError) := by
  simp only [exec, execSetd, immValue_toNat, Config.maxSpeed, if_neg (Nat.not_le.mpr h)]

theorem exec_ramp (s : State) : exec .ramp s = .next (s.rampStep.respond .ok (s.rampStep.motorWord true)) := rfl

theorem exec_tick_fires (s : State) (h : 50 ≤ s.rampTimer.toNat + 10) : exec .tick s =
    .next ((s.writeTimer 0).rampStep.respond .ok ((s.writeTimer 0).rampStep.motorWord true)) := by
  simp only [exec, execTick, Config.tickMs, Config.periodMs, if_pos h]

theorem exec_tick_waits (s : State) (h : s.rampTimer.toNat + 10 < 50) : exec .tick s =
    .next ((s.writeTimer (BitVec.ofNat 8 (s.rampTimer.toNat + 10))).respond .ok
      ((s.writeTimer (BitVec.ofNat 8 (s.rampTimer.toNat + 10))).motorWord false)) := by
  simp only [exec, execTick, Config.tickMs, Config.periodMs, if_neg (Nat.not_le.mpr h)]

theorem exec_est (p : Imm) (s : State) : exec (.est p) s =
    .next ((s.writeEst (BitVec.ofNat 32 (estimate s.cfg p.toNat))).respond .ok
      (BitVec.ofNat 32 (estimate s.cfg p.toNat))) := by
  simp only [exec, execEst, immValue_toNat]

theorem exec_fpush (v : Imm) (s : State) : exec (.fpush v) s =
    .next ((s.pushAverage (immValue v)).respond .ok (s.pushAverage (immValue v)).rpmAvg) := rfl

theorem exec_sample (p : Imm) (s : State) : exec (.sample p) s =
    .next (((s.writeEst (BitVec.ofNat 32 (estimate s.cfg p.toNat))).pushAverage
        (BitVec.ofNat 32 (estimate s.cfg p.toNat))).respond .ok
      ((s.writeEst (BitVec.ofNat 32 (estimate s.cfg p.toNat))).pushAverage
        (BitVec.ofNat 32 (estimate s.cfg p.toNat))).rpmAvg) := by
  simp only [exec, execSample, immValue_toNat]

/-- Every selector but 15 names a register. -/
theorem selectorReg_isSome (sel : Selector) (h : sel.toNat ≠ 15) : ∃ r, selectorReg sel = some r := by
  have hall : ∀ x : Selector, x.toNat ≠ 15 → (selectorReg x).isSome = true := by decide
  exact Option.isSome_iff_exists.mp (hall sel h)

theorem exec_rd (sel : Selector) (r : Reg) (s : State) (h : selectorReg sel = some r) :
    exec (.rd sel) s = .next (s.respond .ok (s.readReg r)) := by
  simp only [exec, execRd, h]

theorem exec_rd_reserved (sel : Selector) (s : State) (h : selectorReg sel = none) :
    exec (.rd sel) s = .next (s.raise .illegal) := by
  simp only [exec, execRd, h]

theorem exec_clrst (s : State) :
    exec .clrst s = .next (s.clearSticky.respond .ok s.clearSticky.statusWord) := rfl

end Sys2Proof.Machine
end

