-- ==== Sys2Proof/Laws/PerInstr.lean ====
section
/-! SUPPORT. Statements per instruction. Family SelectsRow: a well-formed instruction's word selects the row of the opcode
map that carries its mnemonic (30_encoding.md R62). -/

namespace Sys2Proof.Laws

/-- The word of the instruction selects its row. -/
def SelectsRow.Statement (i : Instr) : Prop :=
  i.wellFormed = true → ∃ r ∈ opcodeTable, r.mnemonic = i.mnemonic ∧ r.selects (encode i) = true

/-- The mask 0xFF000000 keeps OPC and RSV, and drops the operand. -/
theorem formatI_masked (o : BitVec 4) (v : Imm) : Field.word o v &&& 0xFF000000 = Field.word o 0 := by
  have hm : (0xFF000000 : BitVec 32) = BitVec.allOnes 8 ++ 0#24 := by decide
  have h0 : (0 : Imm) = 0#24 := rfl
  rw [hm, h0]
  ext j hj
  unfold Field.word
  rw [BitVec.getElem_and, BitVec.getElem_append (y := v), BitVec.getElem_append (y := 0#24),
    BitVec.getElem_append (y := 0#24)]
  split <;> simp only [BitVec.getElem_zero, BitVec.getElem_allOnes, Bool.and_false, Bool.and_true]

theorem SelectsRow.nop : SelectsRow.Statement .nop := fun _ => ⟨⟨"NOP", 0x00000000, 0xFFFFFFFF⟩, by decide⟩

theorem SelectsRow.setd (v : Imm) : SelectsRow.Statement (.setd v) := fun _ =>
  ⟨⟨"SETD", 0x10000000, 0xFF000000⟩, by decide, rfl, by
    simp only [OpcodeRow.selects, encode, formatI_masked]; decide⟩

theorem SelectsRow.ramp : SelectsRow.Statement .ramp := fun _ => ⟨⟨"RAMP", 0x20000000, 0xFFFFFFFF⟩, by decide⟩

theorem SelectsRow.tick : SelectsRow.Statement .tick := fun _ => ⟨⟨"TICK", 0x30000000, 0xFFFFFFFF⟩, by decide⟩

theorem SelectsRow.est (p : Imm) : SelectsRow.Statement (.est p) := fun _ =>
  ⟨⟨"EST", 0x40000000, 0xFF000000⟩, by decide, rfl, by
    simp only [OpcodeRow.selects, encode, formatI_masked]; decide⟩

theorem SelectsRow.fpush (v : Imm) : SelectsRow.Statement (.fpush v) := fun _ =>
  ⟨⟨"FPUSH", 0x50000000, 0xFF000000⟩, by decide, rfl, by
    simp only [OpcodeRow.selects, encode, formatI_masked]; decide⟩

theorem SelectsRow.sample (p : Imm) : SelectsRow.Statement (.sample p) := fun _ =>
  ⟨⟨"SAMPLE", 0x60000000, 0xFF000000⟩, by decide, rfl, by
    simp only [OpcodeRow.selects, encode, formatI_masked]; decide⟩

/-- Every RD word selects RD's row, the reserved selector's too (R62). -/
theorem rd_selects : ∀ sel : Selector, (Field.word 0x7 (sel.setWidth 24) &&& 0xFFFFFFF0 == (0x70000000 : Word)) = true := by
  decide

theorem SelectsRow.rd (sel : Selector) : SelectsRow.Statement (.rd sel) := fun _ =>
  ⟨⟨"RD", 0x70000000, 0xFFFFFFF0⟩, by decide, rfl, rd_selects sel⟩

theorem SelectsRow.clrst : SelectsRow.Statement .clrst := fun _ => ⟨⟨"CLRST", 0x80000000, 0xFFFFFFFF⟩, by decide⟩

end Sys2Proof.Laws
end

