-- ==== Sys2Proof/Tests/Slice0.lean ====
section
/-! SUPPORT. Small tests, with the spec's own examples, and a witness for the hypotheses of each statement. -/

namespace Sys2Proof.Tests

open Sys2Proof.Machine

/-! ## Helpers -/

/-- The state a step answers with, if it answers one. -/
def nextOf : Answer → Option State
  | .next t => some t
  | _ => none

/-- The example configuration PPR = 20, MAX_DUTY = 255 (41_estimator.md R74, 95_test_vectors.md). -/
def cfg20 : Cfg := ⟨20, 255, by decide, by decide⟩

/-- The block of that configuration, after reset. -/
def s0 : State := State.resetWith cfg20

/-- The same with the given inputs presented. -/
def shown (ins : List HostInput) : State := { s0 with pending := ins }

/-- The same with speeds and a prescaler. -/
def moving (desired actual : BitVec 7) (timer : BitVec 8) : State :=
  { s0 with desired := desired, actual := actual, rampTimer := timer }

/-- The same with a full history, the oldest value in slot 1. -/
def filled : State := { s0 with hist := #v[50, 20, 30, 40], widx := 1, fill := 4 }

/-! ## Well-formedness: the one check, refusing an ill-formed term -/

theorem test_wellFormed_refuses_rd15 : (Instr.rd 15).wellFormed = false := by decide

theorem test_wellFormed_rd14 : (Instr.rd 14).wellFormed = true := by decide

/-! ## Decoding: words written out as `{OPC, RSV, IMM}` (30_encoding.md R59, R62) -/

theorem test_decode_nop : decode (0b0000#4 ++ 0b0000#4 ++ 0#24) = .ok .nop := by decide

theorem test_decode_setd : decode (0b0001#4 ++ 0b0000#4 ++ 75#24) = .ok (.setd 75) := by decide

theorem test_decode_ramp : decode (0b0010#4 ++ 0b0000#4 ++ 0#24) = .ok .ramp := by decide

theorem test_decode_tick : decode (0b0011#4 ++ 0b0000#4 ++ 0#24) = .ok .tick := by decide

theorem test_decode_est : decode (0b0100#4 ++ 0b0000#4 ++ 100#24) = .ok (.est 100) := by decide

theorem test_decode_fpush : decode (0b0101#4 ++ 0b0000#4 ++ 0xFFFFFF#24) = .ok (.fpush 0xFFFFFF) := by decide

theorem test_decode_sample : decode (0b0110#4 ++ 0b0000#4 ++ 10#24) = .ok (.sample 10) := by decide

theorem test_decode_rd : decode (0b0111#4 ++ 0b0000#4 ++ 0#20 ++ 0b1110#4) = .ok (.rd 14) := by decide

theorem test_decode_clrst : decode (0b1000#4 ++ 0b0000#4 ++ 0#24) = .ok .clrst := by decide

/-- 95_test_vectors.md 2.1: `RSV ≠ 0` wins over the range (R106). -/
theorem test_decode_rsv : decode 0x11000096 = .error .rsvNonZero ∧ decode 0x5FFFFFFF = .error .rsvNonZero := by decide

theorem test_decode_reserved : decode 0x90000000 = .error .reservedOpcode ∧ decode 0xF0000000 = .error .reservedOpcode := by
  decide

theorem test_decode_formatN : decode 0x00000001 = .error .operandOnFormatN ∧
    decode 0x30800000 = .error .operandOnFormatN ∧ decode 0x80000001 = .error .operandOnFormatN := by decide

theorem test_decode_rd_illegal : decode 0x7000000F = .error .rdSelectorReserved ∧
    decode 0x70000010 = .error .rdOperandBits := by decide

theorem test_encode_words : encode (.setd 150) = 0x10000096 ∧ encode (.rd 12) = 0x7000000C ∧ encode .clrst = 0x80000000 := by
  decide

theorem test_decodeTableWord : decodeTableWord 32 0x70000004 = some (.rd 4) ∧ decodeTableWord 32 0x90000000 = none := by decide

/-! ## The assembler (30_encoding.md R72) -/

theorem test_assemble : assemble "NOP\nsetd 75 ; go\nSTOP\nSAMPLE 0xFFFFFF\nRD RPM_AVG\nRD 12\n.word 0x90000000" =
    .ok [0x00000000, 0x1000004B, 0x10000000, 0x60FFFFFF, 0x70000004, 0x7000000C, 0x90000000] := by decide

/-- R70: the refusals. -/
theorem test_assemble_refuses : assembleLine "EST 16777216".toList = .error .valueOutOfRange ∧
    assembleLine "RD 15".toList = .error .selectorOutOfRange ∧ assembleLine "TICK 1".toList = .error .unexpectedOperand ∧
    assembleLine "HALT".toList = .error .unknownMnemonic := by decide

/-! ## Commands: the spec's examples -/

/-- R96. -/
theorem test_nop : nextOf (exec .nop s0) = some s0 := by decide

/-- R85: SETD 75. -/
theorem test_setd : (nextOf (exec (.setd 75) s0)).map (fun t => (t.desired, t.rcode, t.rdata)) = some (75, .ok, 75) := by
  decide

/-- 95_test_vectors.md 2.4: SETD 101 after SETD 100. -/
theorem test_setd_rangeError : (nextOf (exec (.setd 101) (moving 100 0 0))).map
    (fun t => (t.desired, t.rcode, t.rdata, t.rerr)) = some (100, .range, 100, true) := by decide

/-- R89: the example. -/
theorem test_ramp_up : (nextOf (exec .ramp (moving 75 0 0))).map (fun t => (t.actual, t.duty, t.events, t.rdata)) =
    some (1, 2, [2], 0x00020101) := by decide

/-- 95_test_vectors.md 2.4: ACTUAL 100, DESIRED 0. -/
theorem test_ramp_down : (nextOf (exec .ramp (moving 0 100 0))).map (fun t => (t.actual, t.duty, t.rdata)) =
    some (99, 252, 0x00FC0163) := by decide

/-- R90: the example. -/
theorem test_tick_fires : (nextOf (exec .tick (moving 10 0 40))).map (fun t => (t.rampTimer, t.actual, t.duty, t.rdata)) =
    some (0, 1, 2, 0x00020101) := by decide

/-- 95_test_vectors.md 2.4: the fourth TICK does not fire. -/
theorem test_tick_waits : (nextOf (exec .tick (moving 5 0 30))).map (fun t => (t.rampTimer, t.actual, t.events, t.rdata)) =
    some (40, 0, [], 0) := by decide

/-- R74: the example. -/
theorem test_est : (nextOf (exec (.est 7) s0)).map (fun t => (t.rpmEst, t.rdata, t.rpmAvg)) = some (21, 21, 0) := by decide

/-- 95_test_vectors.md 2.2: the largest result. -/
theorem test_est_largest : (nextOf (exec (.est 16777215) (State.resetWith ⟨1, 255, by decide, by decide⟩))).map
    (fun t => t.rdata) = some 0x3BFFFFC4 := by decide

/-- 95_test_vectors.md L1-2: the fifth value drops the oldest. -/
theorem test_fpush_wraps :
    (nextOf (exec (.fpush 50) { s0 with hist := #v[10, 20, 30, 40], widx := 0, fill := 4 })).map
      (fun t => (t.rdata, t.hist, t.widx, t.fill)) = some (35, #v[50, 20, 30, 40], 1, 4) := by decide

/-- R80: the average during warm-up truncates, and counts no slot that was not written. -/
theorem test_fpush_warmup : (nextOf (exec (.fpush 2) { s0 with hist := #v[1, 0, 0, 0], widx := 1, fill := 1 })).map
    (fun t => (t.rdata, t.fill)) = some (1, 2) := by decide

/-- R81: the example. -/
theorem test_sample : (nextOf (exec (.sample 7) s0)).map
    (fun t => (t.rpmEst, t.hist, t.fill, t.rpmAvg, t.rdata)) = some (21, #v[21, 0, 0, 0], 1, 21, 21) := by decide

/-- 95_test_vectors.md 2.5: RD STATUS right after reset, and the parameters. -/
theorem test_rd_reset : (nextOf (exec (.rd 12) s0)).map (fun t => t.rdata) = some 0x00000008 ∧
    (nextOf (exec (.rd 13) s0)).map (fun t => t.rdata) = some 20 ∧
    (nextOf (exec (.rd 14) s0)).map (fun t => t.rdata) = some 255 := by decide

/-- R38: the history selectors. -/
theorem test_rd_hist : (nextOf (exec (.rd 7) filled)).map (fun t => t.rdata) = some 50 ∧
    (nextOf (exec (.rd 10) filled)).map (fun t => t.rdata) = some 40 := by decide

/-- 95_test_vectors.md 2.5: CLRST after errors, with ACTUAL away from DESIRED. -/
theorem test_clrst : (nextOf (exec .clrst { moving 75 0 0 with rerr := true, ill := true })).map
    (fun t => (t.rerr, t.ill, t.rdata)) = some (false, false, 0) := by decide

/-- R104: an illegal word changes only ILL and the result. -/
theorem test_step_illegal : nextOf (step (shown [.command 0x90000000])) =
    some { s0 with ill := true, rcode := .illegal, rdata := 0 } := by decide

/-- R127, R129: a reset with a command presented together with it. -/
theorem test_step_reset : nextOf (step { moving 75 3 20 with pending := [.reset (some 0x20000000), .command 0] }) =
    some { s0 with pending := [.command 0] } := by decide

/-- The step after `withFetchWord` runs the word, from the reset state itself. -/
theorem test_step_fetchWord : (nextOf (step (State.reset.withFetchWord 32 0x1000004B))).map (fun t => t.desired) = some 75 := by
  decide

/-! ## Witnesses: for each statement with hypotheses, a state and operands that meet them together -/

theorem witness_DecodeOfEncode : (Instr.rd 14).wellFormed = true := by decide

theorem witness_EncodeOfDecode : decode 0x7000000E = .ok (.rd 14) := by decide

theorem witness_OperandIsTheFieldValue : decode 0x10FFFFFF = .ok (.setd 0xFFFFFF) ∧ decode 0x40000000 = .ok (.est 0) ∧
    decode 0x50FFFFFF = .ok (.fpush 0xFFFFFF) ∧ decode 0x60000001 = .ok (.sample 1) ∧
    decode 0x70000000 = .ok (.rd 0) := by decide

/-- One word of each of the five shapes of R64, and a legal word next to each. -/
theorem witness_IllegalShape : IllegalShape 0x01000000 ∧ IllegalShape 0x90000000 ∧ IllegalShape 0x80000001 ∧
    IllegalShape 0x70000010 ∧ IllegalShape 0x7000000F ∧ ¬ IllegalShape 0x80000000 ∧ ¬ IllegalShape 0x7000000E :=
  ⟨by decide, by decide, by decide, by decide, by decide, by decide, by decide⟩

theorem witness_IllegalExactlyWhenListed : (shown [.command 0x7000000F]).pending = .command 0x7000000F :: [] ∧
    IllegalShape 0x7000000F := by decide

theorem witness_IllegalRaisedByIllegalWordsOnly : (shown [.command 0x7000000E]).pending = .command 0x7000000E :: [] ∧
    ¬ IllegalShape 0x7000000E := by decide

theorem witness_OpcodeMapAgreesWithDecode : (⟨"RD", 0x70000000, 0xFFFFFFF0⟩ : OpcodeRow) ∈ opcodeTable ∧
    (⟨"RD", 0x70000000, 0xFFFFFFF0⟩ : OpcodeRow).selects 0x7000000F = true ∧
    (⟨"RD", 0x70000000, 0xFFFFFFF0⟩ : OpcodeRow).selects 0x7000000E = true := by decide

theorem witness_AssemblerEmitsLegalWords : asmTokens [] (asmStrip "RD 14".toList) = ["RD".toList, "14".toList] ∧
    String.ofList "RD".toList ≠ ".word" ∧ assembleLine "RD 14".toList = .ok (some 0x7000000E) := by decide

theorem witness_AssemblerWritesTheLiteral : ("SETD", Instr.setd) ∈ asmFormatI ∧
    asmTokens [] (asmStrip "setd 16777216".toList) = ["setd".toList, "16777216".toList] ∧
    String.ofList ("setd".toList.map Char.toUpper) = "SETD" ∧ asmLiteral "16777216".toList = some 16777216 ∧
    asmLiteral "16777215".toList = some 16777215 :=
  ⟨by simp [asmFormatI], by decide, by decide, by decide, by decide⟩

theorem witness_StopIsSetdZero : asmTokens [] (asmStrip "stop".toList) = ["stop".toList] ∧
    String.ofList ("stop".toList.map Char.toUpper) = "STOP" := by decide

theorem witness_ConfigurationRange : (Cfg.make? 1 65535).isSome = true ∧ (Cfg.make? 65535 1).isSome = true ∧
    (Cfg.make? 0 1).isSome = false ∧ (Cfg.make? 1 0).isSome = false ∧ (Cfg.make? 65536 1).isSome = false ∧
    (Cfg.make? 1 65536).isSome = false := by decide

theorem witness_StepRunsDecodedCommand : (shown [.command 0x20000000]).pending = .command 0x20000000 :: [] ∧
    decode 0x20000000 = .ok .ramp := by decide

theorem witness_EveryWordCompletesInOneStep : (shown [.command 0xFFFFFFFF]).pending = .command 0xFFFFFFFF :: [] := by decide

theorem witness_IdleBlockHoldsItsState : (moving 75 3 20).pending = [] := by decide

theorem witness_ResetSetsEveryRegister : (shown [.reset none]).pending = .reset none :: [] := by decide

theorem witness_ResetDiscardsCoincidentCommand : (shown [.reset (some 0x20000000)]).pending =
    .reset (some 0x20000000) :: [] := by decide

theorem witness_NopResult : (shown [.command 0]).pending = .command 0x00000000 :: [] ∧ (0x0FFFFFFF : Word).toNat < 2 ^ 28 ∧
    (0 : Word).toNat = 0 := by decide

theorem witness_SetdResult : (100 : Imm).toNat ≤ 100 ∧ 100 < (101 : Imm).toNat ∧
    (0x10FFFFFF : Word).toNat = 0x10000000 + (0xFFFFFF : Imm).toNat := by decide

theorem witness_EstResult : (0x40FFFFFF : Word).toNat = 0x40000000 + (0xFFFFFF : Imm).toNat := by decide

theorem witness_FpushResult : (0x50FFFFFF : Word).toNat = 0x50000000 + (0xFFFFFF : Imm).toNat := by decide

theorem witness_SampleResult : (0x60FFFFFF : Word).toNat = 0x60000000 + (0xFFFFFF : Imm).toNat := by decide

theorem witness_RdResult_word : (0x7000000E : Word).toNat = 0x70000000 + (14 : Selector).toNat ∧ (14 : Selector).toNat ≠ 15 := by
  decide

theorem witness_RangeErrorRaisedBySetdOnly : (∃ v : Imm, Instr.setd 101 = .setd v ∧ 100 < v.toNat) ∧
    ¬ ∃ v : Imm, Instr.setd 100 = .setd v ∧ 100 < v.toNat :=
  ⟨⟨101, rfl, by decide⟩, by rintro ⟨v, h, hv⟩; cases h; revert hv; decide⟩

theorem witness_TickResult : (moving 1 0 39).rampTimer.toNat + 10 < 50 ∧ 50 ≤ (moving 1 0 40).rampTimer.toNat + 10 ∧
    50 ≤ (moving 1 0 255).rampTimer.toNat + 10 := by decide

/-- RD's clauses have one selector each, and every selector but 15 falls under one. -/
theorem witness_RdResult : ∀ sel : Selector, sel.toNat ≠ 15 →
    sel.toNat ∈ [0, 1, 2, 3, 4, 5, 6, 11, 12, 13, 14] ∨ ∃ i : Fin 4, sel.toNat = 7 + i.val := by decide

theorem witness_ResultTable : (14 : Selector).toNat ≠ 15 ∧ (100 : Imm).toNat ≤ 100 ∧ ¬ (101 : Imm).toNat ≤ 100 ∧
    (shown [.command 0x01000000]).pending = .command 0x01000000 :: [] ∧ IllegalShape 0x01000000 :=
  ⟨by decide, by decide, by decide, by decide, by decide⟩

theorem witness_ReadIsIdempotent : (12 : Selector).toNat ≠ 15 := by decide

theorem witness_ErrorsArePrecise :
    (∃ t, step (shown [.command 0x10000065]) = .next t ∧ t.rcode = .range) ∧
      ∃ t, step (shown [.command 0x7000000F]) = .next t ∧ t.rcode = .illegal := ⟨⟨_, rfl, rfl⟩, ⟨_, rfl, rfl⟩⟩

theorem witness_RegistersWrittenOnlyByTheirCommands : ∃ t, exec .clrst filled = .next t := ⟨_, rfl⟩

theorem witness_ConfigurationNeverChanges : (∃ t, step (shown [.reset none]) = .next t) ∧
    ∃ t, step (shown [.command 0x7000000D]) = .next t := ⟨⟨_, rfl⟩, ⟨_, rfl⟩⟩

theorem witness_StickyBitsHoldUntilCleared : (∃ t, step (shown [.command 0x10000065]) = .next t ∧ t.rerr = true) ∧
    (∃ t, step { shown [.command 0] with rerr := true, ill := true } = .next t ∧ t.rerr = true ∧ t.ill = true) ∧
    ∃ t, step { shown [.command 0x80000000] with rerr := true, ill := true } = .next t ∧ t.rerr = false :=
  ⟨⟨_, rfl, rfl⟩, ⟨_, rfl, rfl, rfl⟩, ⟨_, rfl, rfl⟩⟩

theorem witness_OneActuatorWritePerRampStep :
    (∃ t, step { moving 75 0 0 with pending := [.command 0x20000000] } = .next t ∧ t.events = [2]) ∧
    (∃ t, step { moving 75 0 40 with pending := [.command 0x30000000] } = .next t ∧ t.events = [2]) ∧
    ∃ t, step { moving 75 0 39 with pending := [.command 0x30000000] } = .next t ∧ t.events = [] :=
  ⟨⟨_, rfl, by decide⟩, ⟨_, rfl, by decide⟩, ⟨_, rfl, by decide⟩⟩

theorem witness_ActualMovesByAtMostOne : (∃ t, exec .ramp (moving 127 0 0) = .next t ∧ t.actual = 1) ∧
    ∃ t, exec .ramp (moving 0 127 0) = .next t ∧ t.actual = 126 := ⟨⟨_, rfl, by decide⟩, ⟨_, rfl, by decide⟩⟩

theorem witness_DutyConversion : (∃ t, exec .ramp (moving 0 0 0) = .next t ∧ t.actual.toNat = 0) ∧
    ∃ t, exec .ramp (moving 100 99 0) = .next t ∧ 100 ≤ t.actual.toNat ∧ t.duty = 255 :=
  ⟨⟨_, rfl, by decide⟩, ⟨_, rfl, by decide, by decide⟩⟩

theorem witness_EstimateIsMonotoneFloor : (7 : Imm).toNat ≤ (7 : Imm).toNat ∧ (0 : Imm).toNat ≤ (16777215 : Imm).toNat := by
  decide

theorem witness_AverageBetweenEntries : (Instr.fpush 1).mnemonic ∈ ["FPUSH", "SAMPLE"] ∧
    (Instr.sample 1).mnemonic ∈ ["FPUSH", "SAMPLE"] := by decide

theorem witness_FilterIsAverageOfLastFour : s0.FilterIndices ∧ filled.FilterIndices ∧
    (∃ x : Imm, Instr.fpush 60 = .fpush x ∧ 60 = x.toNat) ∧
    ∃ p : Imm, Instr.sample 7 = .sample p ∧ 21 = p.toNat * 60 / filled.cfg.ppr.toNat :=
  ⟨by decide, by decide, ⟨60, rfl, by decide⟩, ⟨7, rfl, by decide⟩⟩

theorem witness_StepKeepsInvariants : ({ filled with pending := [.command 0x6000000A] } : State).Inv ∧
    ∃ t, step { filled with pending := [.command 0x6000000A] } = .next t := ⟨by decide, ⟨_, rfl⟩⟩

theorem witness_NoCommandDecreasesFill : filled.fill.toNat ≤ 4 ∧ filled.full = true ∧
    ∃ t, step { filled with pending := [.command 0x5000000A] } = .next t := ⟨by decide, by decide, ⟨_, rfl⟩⟩

theorem witness_PathsShareNoState : s0.cfg = (moving 75 3 20).cfg ∧ s0.SameFilter (moving 75 3 20) ∧
    s0.cfg = filled.cfg ∧ s0.SameRamp filled := by decide

theorem witness_TimeToTarget : (moving 10 0 40).Prescaler ∧ (moving 10 0 40).actual ≠ (moving 10 0 40).desired := by decide

theorem witness_ConformingHostGetsNoRangeError : ∃ t, step (shown [.command 0x10000064]) = .next t ∧
    ∀ v : Imm, decode 0x10000064 = .ok (.setd v) → v.toNat ≤ 100 :=
  ⟨_, rfl, fun v h => by
    have hd : decode 0x10000064 = .ok (.setd 100) := by decide
    rw [hd] at h; cases h; decide⟩

theorem witness_ConformingIteration : (HostIteration.mk (some 100) (some (7, true))).conforms = true ∧
    (moving 0 0 40).Prescaler ∧ (moving 0 0 30).Prescaler := by decide

end Sys2Proof.Tests
end

section
/-! PROOFS. Encoding: what the decoder answers for every word, which rows of the opcode map a word selects, and the
pseudo-instruction STOP (30_encoding.md R62, R64, R71). -/

namespace Sys2Proof.Machine

/-! ### The fields of an assembled RD word -/

@[simp] theorem mbz_word_setWidth (o : BitVec 4) (sel : Selector) :
    Field.mbz (Field.word o (sel.setWidth 24)) = 0#20 := by
  apply BitVec.eq_of_toNat_eq
  have := sel.isLt
  rw [Field.mbz_toNat, Field.word_toNat, BitVec.toNat_setWidth, BitVec.toNat_ofNat]
  omega

@[simp] theorem sel_word_setWidth (o : BitVec 4) (sel : Selector) :
    Field.sel (Field.word o (sel.setWidth 24)) = sel := by
  apply BitVec.eq_of_toNat_eq
  have := sel.isLt
  rw [Field.sel_toNat, Field.word_toNat, BitVec.toNat_setWidth]
  omega

/-! ### Encoding, then decoding -/

/-- The only term without a legal encoding is RD with the reserved selector (R66). -/
theorem wellFormed_or_eq_rd15 (i : Instr) : i.wellFormed = true ∨ i = .rd 15 := by
  cases i with
  | rd sel =>
    by_cases h : sel.toNat = 15
    · exact .inr (congrArg Instr.rd (BitVec.eq_of_toNat_eq h))
    · exact .inl (by simpa [Instr.wellFormed] using h)
  | _ => exact .inl rfl

/-- The decoder gives back every well-formed instruction. -/
theorem decode_encode (i : Instr) (h : i.wellFormed = true) : decode (encode i) = .ok i := by
  cases i with
  | rd sel =>
    have hsel : sel.toNat ≠ 15 := by simpa [Instr.wellFormed] using h
    simp [encode, decode, decodeFormatS, hsel]
  | _ => simp [encode, decode, decodeFormatN]

/-- R64's shapes, in the fields of the word. -/
theorem illegalShape_iff_fields (cw : Word) : IllegalShape cw ↔
    (Field.rsv cw).toNat ≠ 0 ∨ 9 ≤ (Field.opc cw).toNat ∨
      ((Field.opc cw).toNat ∈ [0, 2, 3, 8] ∧ (Field.imm cw).toNat ≠ 0) ∨
      ((Field.opc cw).toNat = 7 ∧ (Field.mbz cw).toNat ≠ 0) ∨
      ((Field.opc cw).toNat = 7 ∧ (Field.sel cw).toNat = 15) := by
  rw [Field.rsv_toNat, Field.opc_toNat, Field.imm_toNat, Field.mbz_toNat, Field.sel_toNat]

/-- No well-formed instruction's word has a shape of R64. -/
theorem not_illegalShape_encode (i : Instr) (h : i.wellFormed = true) : ¬ IllegalShape (encode i) := by
  rw [illegalShape_iff_fields]
  cases i with
  | rd sel =>
    have hsel : sel.toNat ≠ 15 := by simpa [Instr.wellFormed] using h
    simp [encode, hsel]
  | _ => simp [encode]

/-! ### What the decoder answers -/

/-- What an answer of the decoder says of the word: an instruction is well-formed and encodes to the word, and a refused
word has a shape of R64. -/
def DecodeAnswer (cw : Word) : Except IllegalWord Instr → Prop
  | .ok i => i.wellFormed = true ∧ encode i = cw
  | .error _ => IllegalShape cw

/-- A word with zero in RSV is assembled from the opcode it has and its IMM. -/
theorem word_of_opc {cw : Word} {o : BitVec 4} (ho : (Field.opc cw).toNat = o.toNat) (hrsv : (Field.rsv cw).toNat = 0) :
    Field.word o (Field.imm cw) = cw := by
  rw [← BitVec.eq_of_toNat_eq ho, Field.word_of_fields cw hrsv]

theorem decodeFormatN_answer {cw : Word} {i : Instr} {o : BitVec 4} (hi : i.wellFormed = true)
    (henc : encode i = Field.word o 0) (ho : (Field.opc cw).toNat = o.toNat) (hmem : o.toNat ∈ [0, 2, 3, 8])
    (hrsv : (Field.rsv cw).toNat = 0) : DecodeAnswer cw (decodeFormatN i cw) := by
  unfold decodeFormatN
  split
  next himm =>
    have himm0 : Field.imm cw = 0 := BitVec.eq_of_toNat_eq himm
    exact ⟨hi, by rw [henc, ← himm0, word_of_opc ho hrsv]⟩
  next himm =>
    exact (illegalShape_iff_fields cw).mpr (.inr (.inr (.inl ⟨ho ▸ hmem, himm⟩)))

theorem decodeFormatS_answer {cw : Word} (hopc : (Field.opc cw).toNat = 7) (hrsv : (Field.rsv cw).toNat = 0) :
    DecodeAnswer cw (decodeFormatS cw) := by
  unfold decodeFormatS
  split
  next hmbz =>
    exact (illegalShape_iff_fields cw).mpr (.inr (.inr (.inr (.inl ⟨hopc, hmbz⟩))))
  next hmbz =>
    split
    next hsel =>
      exact (illegalShape_iff_fields cw).mpr (.inr (.inr (.inr (.inr ⟨hopc, hsel⟩))))
    next hsel =>
      refine ⟨by simpa [Instr.wellFormed] using hsel, ?_⟩
      rw [encode, Field.imm_of_sel cw (by omega), word_of_opc hopc hrsv]

/-- The inversion of the decoder, one case per opcode of R62. -/
theorem decode_answer (cw : Word) : DecodeAnswer cw (decode cw) := by
  unfold decode
  split
  next hrsv =>
    exact (illegalShape_iff_fields cw).mpr (.inl hrsv)
  next hrsv =>
    have hrsv0 : (Field.rsv cw).toNat = 0 := by omega
    split
    next h => exact decodeFormatN_answer rfl rfl h (by decide) hrsv0
    next h => exact ⟨rfl, word_of_opc h hrsv0⟩
    next h => exact decodeFormatN_answer rfl rfl h (by decide) hrsv0
    next h => exact decodeFormatN_answer rfl rfl h (by decide) hrsv0
    next h => exact ⟨rfl, word_of_opc h hrsv0⟩
    next h => exact ⟨rfl, word_of_opc h hrsv0⟩
    next h => exact ⟨rfl, word_of_opc h hrsv0⟩
    next h => exact decodeFormatS_answer h hrsv0
    next h => exact decodeFormatN_answer rfl rfl h (by decide) hrsv0
    next =>
      refine (illegalShape_iff_fields cw).mpr (.inr (.inl ?_))
      simp only [imp_false] at *
      omega

/-- A legal word is the word of its instruction, which is well-formed. -/
theorem encode_of_decode_ok {cw : Word} {i : Instr} (h : decode cw = .ok i) : i.wellFormed = true ∧ encode i = cw := by
  have ha := decode_answer cw
  rwa [h] at ha

theorem decode_error_iff_illegalShape (cw : Word) : (∃ r, decode cw = .error r) ↔ IllegalShape cw := by
  constructor
  · rintro ⟨r, hr⟩
    have ha := decode_answer cw
    rwa [hr] at ha
  · intro hshape
    cases hd : decode cw with
    | error r => exact ⟨r, rfl⟩
    | ok i =>
      obtain ⟨hwf, rfl⟩ := encode_of_decode_ok hd
      exact absurd hshape (not_illegalShape_encode i hwf)

/-! ### Illegal words -/

/-- A step on an illegal word takes it and raises Illegal (R104). -/
theorem step_of_decode_error {s : State} {cw : Word} {rest : List HostInput} {r : IllegalWord}
    (hp : s.pending = .command cw :: rest) (hd : decode cw = .error r) :
    step s = .next ((s.accept rest).raise .illegal) := by
  simp only [step, hp, hd]

/-- Settles O5: the decoder refuses exactly the words of R64's shapes, and the step on one is `raise Illegal`. -/
theorem illegalExactlyWhenListed : Obligations.IllegalExactlyWhenListed := by
  refine ⟨decode_error_iff_illegalShape, fun s cw rest hp hshape => ?_⟩
  obtain ⟨r, hr⟩ := (decode_error_iff_illegalShape cw).mpr hshape
  rw [step_of_decode_error hp hr, raise_illegal_eq, State.accept]

/-! ### The opcode map -/

/-- The word of a well-formed instruction selects its instruction's row: the family of Laws/PerInstr.lean, together. -/
theorem encode_selectsRow (i : Instr) : Laws.SelectsRow.Statement i := by
  cases i with
  | nop => exact Laws.SelectsRow.nop
  | setd v => exact Laws.SelectsRow.setd v
  | ramp => exact Laws.SelectsRow.ramp
  | tick => exact Laws.SelectsRow.tick
  | est p => exact Laws.SelectsRow.est p
  | fpush v => exact Laws.SelectsRow.fpush v
  | sample p => exact Laws.SelectsRow.sample p
  | rd sel => exact Laws.SelectsRow.rd sel
  | clrst => exact Laws.SelectsRow.clrst

/-- A word that agrees with a format I row is that row's opcode and the word's own operand. -/
theorem word_imm_of_formatI_match {cw : Word} {o : BitVec 4} (h : cw &&& 0xFF000000 = Field.word o 0) :
    Field.word o (Field.imm cw) = cw := by
  replace h := congrArg BitVec.toNat h
  rw [mask_formatI_toNat, Field.word_toNat, show (0 : Imm).toNat = 0 from rfl, Nat.add_zero] at h
  apply BitVec.eq_of_toNat_eq
  rw [Field.word_toNat, Field.imm_toNat, ← h, Nat.div_add_mod']

/-- A word that agrees with the format S row is RD's opcode and the word's own selector. -/
theorem word_sel_of_formatS_match {cw : Word} (h : cw &&& 0xFFFFFFF0 = 0x70000000) :
    Field.word 0x7 ((Field.sel cw).setWidth 24) = cw := by
  replace h := congrArg BitVec.toNat h
  rw [mask_formatS_toNat, show (0x70000000 : Word).toNat = 0x70000000 from rfl] at h
  apply BitVec.eq_of_toNat_eq
  rw [Field.word_toNat, BitVec.toNat_setWidth, Field.sel_toNat, show (0x7 : BitVec 4).toNat = 7 from rfl]
  omega

/-- A word that selects a row is the encoding of a term with that row's mnemonic, ill-formed or not. -/
theorem exists_encode_of_selects {cw : Word} {r : OpcodeRow} (hr : r ∈ opcodeTable) (hs : r.selects cw = true) :
    ∃ i : Instr, encode i = cw ∧ i.mnemonic = r.mnemonic := by
  have hm : cw &&& r.mask = r.matchBits := by simpa [OpcodeRow.selects] using hs
  have hN (h : r.mask = 0xFFFFFFFF) : r.matchBits = cw := by rw [← hm, h, mask_formatN]
  simp only [opcodeTable, List.mem_cons, List.not_mem_nil, or_false] at hr
  rcases hr with rfl | rfl | rfl | rfl | rfl | rfl | rfl | rfl | rfl
  · exact ⟨.nop, hN rfl, rfl⟩
  · exact ⟨.setd (Field.imm cw), word_imm_of_formatI_match hm, rfl⟩
  · exact ⟨.ramp, hN rfl, rfl⟩
  · exact ⟨.tick, hN rfl, rfl⟩
  · exact ⟨.est (Field.imm cw), word_imm_of_formatI_match hm, rfl⟩
  · exact ⟨.fpush (Field.imm cw), word_imm_of_formatI_match hm, rfl⟩
  · exact ⟨.sample (Field.imm cw), word_imm_of_formatI_match hm, rfl⟩
  · exact ⟨.rd (Field.sel cw), word_sel_of_formatS_match hm, rfl⟩
  · exact ⟨.clrst, hN rfl, rfl⟩

/-- A word that selects a row decodes to that row's command, but for RD's reserved selector (R62, R66). -/
theorem decode_of_selects {cw : Word} {r : OpcodeRow} (hr : r ∈ opcodeTable) (hs : r.selects cw = true) :
    if cw = 0x7000000F then r.mnemonic = "RD" ∧ ∃ e, decode cw = .error e
    else ∃ i, decode cw = .ok i ∧ i.mnemonic = r.mnemonic := by
  have hreserved : decode 0x7000000F = .error .rdSelectorReserved := by decide
  obtain ⟨i, rfl, hmn⟩ := exists_encode_of_selects hr hs
  rcases wellFormed_or_eq_rd15 i with hwf | rfl
  · have hd := decode_encode i hwf
    rw [if_neg (by intro h; rw [h, hreserved] at hd; cases hd)]
    exact ⟨i, hd, hmn⟩
  · rw [if_pos (by decide)]
    exact ⟨hmn.symm, _, hreserved⟩

/-- Rows of the map have mnemonics of their own. -/
theorem opcodeTable_mnemonic_inj : ∀ r ∈ opcodeTable, ∀ r' ∈ opcodeTable, r.mnemonic = r'.mnemonic → r = r' := by
  decide

/-- The row is fixed by the mnemonic, and that by the decoded command or by RD's reserved selector. -/
theorem selects_unique {cw : Word} {r r' : OpcodeRow} (hr : r ∈ opcodeTable) (hr' : r' ∈ opcodeTable)
    (hs : r.selects cw = true) (hs' : r'.selects cw = true) : r = r' := by
  have hd := decode_of_selects hr hs
  have hd' := decode_of_selects hr' hs'
  apply opcodeTable_mnemonic_inj r hr r' hr'
  split at hd
  next hF =>
    rw [if_pos hF] at hd'
    obtain ⟨hmn, -⟩ := hd
    obtain ⟨hmn', -⟩ := hd'
    rw [hmn, hmn']
  next hF =>
    rw [if_neg hF] at hd'
    obtain ⟨i, hi, hmn⟩ := hd
    obtain ⟨j, hj, hmn'⟩ := hd'
    rw [hi] at hj
    cases hj
    rw [← hmn, hmn']

/-- Settles O7: a selected row is tied to the decoded command by the word's encoding. -/
theorem opcodeMapAgreesWithDecode : Obligations.OpcodeMapAgreesWithDecode := by
  refine ⟨fun cw r hr r' hr' => selects_unique hr hr', fun cw i hd => ?_, fun cw r hr => decode_of_selects hr⟩
  obtain ⟨hwf, rfl⟩ := encode_of_decode_ok hd
  exact encode_selectsRow i hwf

/-! ### STOP -/

/-- STOP, in any case, spells `SETD 0` (R71). -/
theorem asmCommand_stop {m : List Char} (h : String.ofList (m.map Char.toUpper) = "STOP") :
    asmCommand m [] = .ok (.setd 0) := by
  have hlookup : asmFormatN.lookup "STOP" = some (.setd 0) := by decide
  simp only [asmCommand, h, hlookup, List.isEmpty_nil, if_true]

/-- A line whose first word is not the directive is the word of the command it spells. -/
theorem assembleLine_of_tokens {line m : List Char} {ops : List (List Char)}
    (ht : asmTokens [] (asmStrip line) = m :: ops) (hm : String.ofList m ≠ ".word") :
    assembleLine line = (asmCommand m ops).map fun i => some (encode i) := by
  simp only [assembleLine, ht, if_neg hm]

/-- No spelling of STOP is the directive `.word`. -/
theorem ne_word_of_upper_stop {m : List Char} (h : String.ofList (m.map Char.toUpper) = "STOP") :
    String.ofList m ≠ ".word" := by
  intro hw
  have hm : m = ".word".toList := by rw [← hw, String.toList_ofList]
  subst hm
  revert h
  decide

theorem assembleLine_stop {line m : List Char} (ht : asmTokens [] (asmStrip line) = [m])
    (h : String.ofList (m.map Char.toUpper) = "STOP") : assembleLine line = .ok (some 0x10000000) := by
  rw [assembleLine_of_tokens ht (ne_word_of_upper_stop h), asmCommand_stop h]
  rfl

theorem exec_setd_zero (s : State) : exec (.setd 0) s = .next { s with desired := 0, rcode := .ok, rdata := 0 } := by
  rw [exec_setd_inRange 0 s (by decide)]
  rfl

/-- Settles O10: STOP assembles to the word of `SETD 0`, whose meaning is R85's with the value 0. -/
theorem stopIsSetdZero : Obligations.StopIsSetdZero :=
  ⟨fun _ _ ht h => assembleLine_stop ht h, decode_encode (.setd 0) rfl, exec_setd_zero⟩

end Sys2Proof.Machine
end

section
/-! PROOFS. The estimator: EST's word, its result and frame, and the estimate as a monotone floor
(41_estimator.md R73 to R76). -/

namespace Sys2Proof.Machine

/-- The word of an opcode and an IMM is fixed by its number. -/
theorem eq_word_of_toNat {cw : Word} {o : BitVec 4} {v : Imm} (h : cw.toNat = o.toNat * 2 ^ 28 + v.toNat) :
    cw = Field.word o v :=
  BitVec.eq_of_toNat_eq (h.trans (Field.word_toNat o v).symm)

/-- EST's meaning in numbers, with its frame (R73, R74). -/
theorem exec_est_result (p : Imm) (s : State) : ∃ t, exec (.est p) s = .next t ∧
    t.rpmEst.toNat = p.toNat * 60 / s.cfg.ppr.toNat ∧
    t = { s with rpmEst := t.rpmEst, rcode := .ok, rdata := t.rpmEst } :=
  ⟨_, exec_est p s, estimate_toNat s.cfg p, rfl⟩

/-- Settles O22: the word is EST's encoding, and the 32-bit write of the estimate loses nothing. -/
theorem estResult : Obligations.EstResult := by
  refine ⟨fun cw p hcw => ?_, exec_est_result⟩
  have hword : cw = encode (.est p) := eq_word_of_toNat hcw
  rw [hword, decode_encode (.est p) rfl]

/-- Settles O35: R76's three bounds are those of truncating division by a positive PPR. -/
theorem estimateIsMonotoneFloor : Obligations.EstimateIsMonotoneFloor := by
  intro p q s hpq
  obtain ⟨t, hexecP, hp, -⟩ := exec_est_result p s
  obtain ⟨u, hexecQ, hq, -⟩ := exec_est_result q s
  refine ⟨t, u, hexecP, hexecQ, ?_⟩
  rw [hp, hq, Nat.mul_comm 60]
  exact ⟨Nat.div_le_div_right (Nat.mul_le_mul_right 60 hpq), Nat.div_mul_le_self _ _,
    (Nat.div_lt_iff_lt_mul s.cfg.ppr_pos).mp (Nat.lt_succ_self _)⟩

end Sys2Proof.Machine
end

section
/-! PROOFS. The filter: the words of FPUSH and SAMPLE, and what the push and the average that the two share write
(42_filter.md R77 to R81). -/

namespace Sys2Proof.Machine

/-- A word whose number is an instruction's opcode and operand decodes to that instruction. -/
theorem decode_of_toNat {cw : Word} {i : Instr} {o : BitVec 4} {v : Imm} (hwf : i.wellFormed = true)
    (henc : encode i = Field.word o v) (h : cw.toNat = o.toNat * 2 ^ 28 + v.toNat) : decode cw = .ok i := by
  rw [eq_word_of_toNat h, ← henc, decode_encode i hwf]

/-- The filter registers after a push and the write of the average, which is that of the entries then valid (R77, R79). -/
theorem pushAverage_filter (s : State) (v : Word) :
    (∀ i : Fin 4, (s.pushAverage v).hist[i.val] = if i.val = s.widx.toNat then v else s.hist[i.val]) ∧
      (s.pushAverage v).widx.toNat = (s.widx.toNat + 1) % 4 ∧
      (s.pushAverage v).fill.toNat = min (s.fill.toNat + 1) 4 ∧
      (s.pushAverage v).rpmAvg.toNat = (s.pushAverage v).average :=
  ⟨push_hist_get s v, push_widx_toNat s v, push_fill_toNat s v, pushAverage_rpmAvg_toNat s v⟩

/-- A push and its average, answered, write the four filter registers and the result only. -/
theorem pushAverage_respond_frame (s : State) (v : Word) :
    (s.pushAverage v).respond .ok (s.pushAverage v).rpmAvg =
      { s with
        hist := (s.pushAverage v).hist, widx := (s.pushAverage v).widx, fill := (s.pushAverage v).fill,
        rpmAvg := (s.pushAverage v).rpmAvg, rcode := .ok, rdata := (s.pushAverage v).rpmAvg } := rfl

/-- Settles O23: FPUSH is the shared push and average of its zero-extended operand. -/
theorem fpushResult : Obligations.FpushResult := by
  refine ⟨fun cw v hcw => decode_of_toNat (o := 0x5) rfl rfl hcw, fun v s => ?_⟩
  obtain ⟨hhist, hwidx, hfill, havg⟩ := pushAverage_filter s (immValue v)
  refine ⟨_, exec_fpush v s, fun i => ?_, hwidx, hfill, havg, pushAverage_respond_frame s (immValue v)⟩
  rw [State.respond_hist, hhist i, apply_ite BitVec.toNat, immValue_toNat]

/-- Settles O24: SAMPLE is the same push and average, of the estimate, on the state that holds it in RPM_EST. -/
theorem sampleResult : Obligations.SampleResult := by
  refine ⟨fun cw p hcw => decode_of_toNat (o := 0x6) rfl rfl hcw, fun p s => ?_⟩
  obtain ⟨hhist, hwidx, hfill, havg⟩ := pushAverage_filter (s.writeEst (BitVec.ofNat 32 (estimate s.cfg p.toNat)))
    (BitVec.ofNat 32 (estimate s.cfg p.toNat))
  exact ⟨_, exec_sample p s, estimate_toNat s.cfg p, hhist, hwidx, hfill, havg, pushAverage_respond_frame _ _⟩

end Sys2Proof.Machine
end

section
/-! PROOFS. The ramp: what SETD, RAMP and TICK write and answer, and the corner values of the duty conversion
(43_ramp.md R85 to R90). -/

namespace Sys2Proof.Machine

/-! ### SETD -/

/-- SETD in range, in numbers and with its frame (R85). -/
theorem exec_setd_inRange_result (v : Imm) (s : State) (h : v.toNat ≤ 100) : ∃ t, exec (.setd v) s = .next t ∧
    t.desired.toNat = v.toNat ∧ t.rdata.toNat = v.toNat ∧
    t = { s with desired := t.desired, rcode := .ok, rdata := t.rdata } :=
  ⟨_, exec_setd_inRange v s h, speed_toNat v h, immValue_toNat v, rfl⟩

/-- SETD above 100 answers DESIRED as it was and sets RERR (R85, R105). -/
theorem exec_setd_outOfRange_result (v : Imm) (s : State) (h : 100 < v.toNat) : ∃ t, exec (.setd v) s = .next t ∧
    t.rdata.toNat = s.desired.toNat ∧ t = { s with rerr := true, rcode := .range, rdata := t.rdata } :=
  ⟨_, exec_setd_outOfRange v s h, BitVec.toNat_setWidth_of_le (by decide), rfl⟩

/-- Settles O18: the two branches of R85, on either side of the operand 100. -/
theorem setdResult : Obligations.SetdResult :=
  ⟨fun _ _ hcw => decode_of_toNat (o := 0x1) rfl rfl hcw,
    fun v s => ⟨exec_setd_inRange_result v s, exec_setd_outOfRange_result v s⟩⟩

/-! ### The ramp step -/

/-- The speed and the duty after a ramp step, and the motor word that tells of it (R86 to R88). -/
theorem rampStep_motor (s : State) :
    (s.rampStep.actual.toNat : Int) = towards s.actual.toNat s.desired.toNat ∧
      s.rampStep.duty.toNat = min s.rampStep.actual.toNat 100 * s.cfg.maxDuty.toNat / 100 ∧
      (s.rampStep.motorWord true).toNat = s.rampStep.duty.toNat * 2 ^ 16 + 2 ^ 8 + s.rampStep.actual.toNat :=
  ⟨stepToward_toInt s.actual s.desired, dutyOf_toNat s.cfg _, motorWord_toNat s.rampStep true⟩

/-- A ramp step, answered, writes ACTUAL, DUTY, the actuator's outputs and the result only. -/
theorem rampStep_respond_frame (s : State) (data : Word) :
    s.rampStep.respond .ok data =
      { s with
        actual := s.rampStep.actual, duty := s.rampStep.duty, actWe := true, events := s.events ++ [s.rampStep.duty],
        rcode := .ok, rdata := data } := rfl

/-- Settles O20: RAMP is the shared ramp step and its motor word. -/
theorem rampResult : Obligations.RampResult := by
  refine ⟨decode_encode .ramp rfl, fun s => ?_⟩
  obtain ⟨hactual, hduty, hword⟩ := rampStep_motor s
  exact ⟨_, exec_ramp s, hactual, hduty, hword, rampStep_respond_frame s _⟩

/-! ### TICK -/

/-- TICK below 50 ms: the sum fits RAMP_TIMER, and the motor word has FIRED clear (R90). -/
theorem exec_tick_waits_result (s : State) (h : s.rampTimer.toNat + 10 < 50) : ∃ t, exec .tick s = .next t ∧
    t.rampTimer.toNat = s.rampTimer.toNat + 10 ∧ t.rdata.toNat = s.duty.toNat * 2 ^ 16 + s.actual.toNat ∧
    t = { s with rampTimer := t.rampTimer, rcode := .ok, rdata := t.rdata } := by
  refine ⟨_, exec_tick_waits s h, ?_, ?_, rfl⟩
  · exact (BitVec.toNat_ofNat _ 8).trans (Nat.mod_eq_of_lt (by omega))
  · simp [motorWord_toNat]

/-- Settles O21: below 50 only the timer moves; from 50 on TICK is the shared ramp step, on the state with the timer
cleared. -/
theorem tickResult : Obligations.TickResult := by
  refine ⟨decode_encode .tick rfl, fun s => ?_⟩
  rcases Nat.lt_or_ge (s.rampTimer.toNat + 10) 50 with hlt | hge
  · obtain ⟨t, hexec, hresult⟩ := exec_tick_waits_result s hlt
    exact ⟨t, hexec, fun _ => hresult, fun hge => absurd hlt (Nat.not_lt.mpr hge)⟩
  · obtain ⟨hactual, hduty, hword⟩ := rampStep_motor (s.writeTimer 0)
    exact ⟨_, exec_tick_fires s hge, fun hlt => absurd hlt (Nat.not_lt.mpr hge),
      fun _ => ⟨hactual, hduty, hword, rampStep_respond_frame (s.writeTimer 0) _⟩⟩

/-! ### The duty conversion -/

/-- No speed, no duty (R87). -/
theorem dutyOf_toNat_of_stopped (c : Cfg) {a : BitVec 7} (h : a.toNat = 0) : (dutyOf c a).toNat = 0 := by
  simp [dutyOf_toNat, h]

/-- From 100 on the clamp gives full scale, and the division by 100 is exact (R87, R88). -/
theorem dutyOf_of_full (c : Cfg) {a : BitVec 7} (h : 100 ≤ a.toNat) : dutyOf c a = c.maxDuty := by
  apply BitVec.eq_of_toNat_eq
  rw [dutyOf_toNat, Nat.min_eq_right h, Nat.mul_div_cancel_left _ (by decide)]

theorem dutyOf_toNat_le (c : Cfg) (a : BitVec 7) : (dutyOf c a).toNat ≤ c.maxDuty.toNat := by
  rw [dutyOf_toNat]
  exact duty_quotient_le c.maxDuty.toNat a.toNat

/-- Settles O34: RAMP writes `dutyOf` of the new ACTUAL, whose corner values and bound are those of R87. -/
theorem dutyConversion : Obligations.DutyConversion := fun s =>
  ⟨_, exec_ramp s, dutyOf_toNat s.cfg _, dutyOf_toNat_of_stopped s.cfg, dutyOf_of_full s.cfg, dutyOf_toNat_le s.cfg _⟩

end Sys2Proof.Machine
end

section
/-! PROOFS. The control commands: what NOP, RD and CLRST answer, and that they change nothing else (44_control.md R96
to R99). -/

namespace Sys2Proof.Machine

/-! ### The register a selector names -/

/-- The selector of each register, R38's table read from the register's side. -/
def regSelector : Reg → Nat
  | .desired => 0
  | .actual => 1
  | .duty => 2
  | .rpmEst => 3
  | .rpmAvg => 4
  | .fill => 5
  | .widx => 6
  | .hist i => 7 + i.val
  | .rampTimer => 11
  | .status => 12
  | .paramPpr => 13
  | .paramMaxduty => 14

/-- A register's own selector names it. -/
theorem selectorReg_of_selector {sel : Selector} {q : Reg} (h : sel.toNat = regSelector q) :
    selectorReg sel = some q := by
  unfold selectorReg
  rw [h]
  cases q with
  | hist i => fin_cases i <;> rfl
  | _ => rfl

/-- RD with a selector that names a register answers the value of the register that has this selector. -/
theorem readReg_of_selector {sel : Selector} {r : Reg} (s : State) (hr : selectorReg sel = some r) (q : Reg)
    (h : sel.toNat = regSelector q) : s.readReg r = s.readReg q := by
  rw [Option.some.inj (hr.symm.trans (selectorReg_of_selector h))]

/-- A register held in at most 32 bits is read with its own value (R97). -/
theorem readReg_toNat_of_selector {sel : Selector} {r : Reg} (s : State) (hr : selectorReg sel = some r) (q : Reg)
    {n : Nat} {x : BitVec n} (hq : s.readReg q = x.setWidth 32) (hn : n ≤ 32) (h : sel.toNat = regSelector q) :
    (s.readReg r).toNat = x.toNat := by
  rw [readReg_of_selector s hr q h, hq, BitVec.toNat_setWidth_of_le hn]

/-! ### STATUS -/

theorem mul_boolToNat (k : Nat) (b : Bool) : k * b.toNat = if b = true then k else 0 := by cases b <;> simp

/-- FULL's bit by what R34 computes. -/
theorem full_bit (s : State) : 4 * s.full.toNat = if s.fill.toNat = 4 then 4 else 0 := by
  simp only [mul_boolToNat, State.full, beq_iff_eq]

/-- ATTGT's bit by what R35 computes. -/
theorem atTarget_bit (s : State) : 8 * s.atTarget.toNat = if s.actual = s.desired then 8 else 0 := by
  simp only [mul_boolToNat, State.atTarget, beq_iff_eq]

/-- STATUS as the sum of its flags (R31 to R35). -/
theorem statusWord_toNat_flags (s : State) : s.statusWord.toNat =
    (if s.rerr then 1 else 0) + (if s.ill then 2 else 0) + (if s.fill.toNat = 4 then 4 else 0) +
      (if s.actual = s.desired then 8 else 0) := by
  rw [statusWord_toNat, full_bit, atTarget_bit, mul_boolToNat, ← Nat.one_mul s.rerr.toNat, mul_boolToNat]

/-- After clearing, STATUS holds the computed flags alone, which are as before (R99). -/
theorem statusWord_clearSticky_toNat (s : State) : s.clearSticky.statusWord.toNat =
    (if s.fill.toNat = 4 then 4 else 0) + (if s.actual = s.desired then 8 else 0) := by
  calc s.clearSticky.statusWord.toNat
    _ = 0 + 2 * 0 + 4 * s.full.toNat + 8 * s.atTarget.toNat := statusWord_toNat s.clearSticky
    _ = _ := by rw [full_bit, atTarget_bit, Nat.mul_zero, Nat.zero_add]

/-! ### RD -/

/-- Settles O25: RD's result is the value of the register its selector names, and the frame is that of `respond`. -/
theorem rdResult : Obligations.RdResult := by
  refine ⟨fun cw sel hcw hsel => ?_, fun sel s hsel => ?_⟩
  · refine decode_of_toNat (o := 0x7) (v := sel.setWidth 24) (by simpa [Instr.wellFormed] using hsel) rfl ?_
    rw [hcw, BitVec.toNat_setWidth_of_le (by decide)]
    rfl
  · obtain ⟨r, hr⟩ := selectorReg_isSome sel hsel
    have hnat := @readReg_toNat_of_selector sel r s hr
    have hword := readReg_of_selector s hr
    refine ⟨_, exec_rd sel r s hr, rfl, hnat .desired rfl (by decide), hnat .actual rfl (by decide),
      hnat .duty rfl (by decide), hword .rpmEst, hword .rpmAvg, hnat .fill rfl (by decide), hnat .widx rfl (by decide),
      fun i => hword (.hist i), hnat .rampTimer rfl (by decide), fun h => ?status, hnat .paramPpr rfl (by decide),
      hnat .paramMaxduty rfl (by decide)⟩
    case status =>
      rw [State.respond_rdata, hword .status h]
      exact statusWord_toNat_flags s

/-! ### CLRST -/

/-- Settles O26: CLRST answers STATUS of the cleared state. -/
theorem clrstResult : Obligations.ClrstResult :=
  ⟨decode_encode .clrst rfl, fun s => ⟨_, exec_clrst s, statusWord_clearSticky_toNat s, rfl⟩⟩

/-! ### NOP -/

/-- A step on a legal word takes it and runs its instruction. -/
theorem step_of_decode_ok {s : State} {cw : Word} {rest : List HostInput} {i : Instr}
    (hp : s.pending = .command cw :: rest) (hd : decode cw = .ok i) : step s = exec i (s.accept rest) := by
  simp only [step, hp, hd]

/-- NOP's word is the only legal one with OPC 0: any other has a nonzero RSV or a nonzero IMM. -/
theorem illegalShape_of_opc_zero {cw : Word} (hopc : cw.toNat < 2 ^ 28) (h0 : cw.toNat ≠ 0) : IllegalShape cw := by
  have hopc0 : cw.toNat / 2 ^ 28 = 0 := Nat.div_eq_of_lt hopc
  by_cases hrsv : cw.toNat / 2 ^ 24 % 16 = 0
  · have himm : cw.toNat % 2 ^ 24 ≠ 0 := by omega
    exact .inr (.inr (.inl ⟨List.mem_cons.mpr (.inl hopc0), himm⟩))
  · exact .inl hrsv

/-- NOP's word decodes to NOP. -/
theorem decode_zero : decode 0x00000000 = .ok .nop := decode_encode .nop rfl

/-- Settles O17: the word 0 is NOP's encoding and the rest of OPC 0 has a shape of R64; NOP only responds. -/
theorem nopResult : Obligations.NopResult := by
  refine ⟨fun cw hopc => ?_, fun s => ⟨exec_nop s, fun rest hp => ?_⟩⟩
  · split
    next h0 => rw [BitVec.eq_of_toNat_eq (y := 0x00000000) h0, decode_zero]
    next h0 => exact (decode_error_iff_illegalShape cw).mpr (illegalShape_of_opc_zero hopc h0)
  · rw [step_of_decode_ok hp decode_zero, exec_nop]
    rfl

end Sys2Proof.Machine
end

section
/-! PROOFS. Results and errors: what an instruction answers, the two errors and what raises them, and that the result of
a step does not depend on the one before (60_exceptions.md R101 to R105, R126). -/

namespace Sys2Proof.Machine

/-! ### What an instruction answers -/

/-- From `s`, the instruction ended in `t` and raised nothing: the result is OK, the stream is as it was, and CLRST alone
changes the sticky bits, clearing both. -/
structure CompletesOk (i : Instr) (s t : State) : Prop where
  rcode : t.rcode = .ok
  pending : t.pending = s.pending
  rerr : t.rerr = (s.rerr && i != .clrst)
  ill : t.ill = (s.ill && i != .clrst)

/-- An instruction other than CLRST completes with OK when it only responds after updates that leave the stream and the
sticky bits. -/
theorem completesOk_respond {i : Instr} {s u : State} (hi : (i != .clrst) = true) (data : Word)
    (hpending : u.pending = s.pending) (hrerr : u.rerr = s.rerr) (hill : u.ill = s.ill) :
    CompletesOk i s (u.respond .ok data) :=
  ⟨rfl, hpending, by simpa [hi] using hrerr, by simpa [hi] using hill⟩

theorem CompletesOk.rerr_of_rerr {i : Instr} {s t : State} (h : CompletesOk i s t) (ht : t.rerr = true) :
    s.rerr = true :=
  Bool.and_elim_left (h.rerr ▸ ht)

theorem CompletesOk.ill_of_ill {i : Instr} {s t : State} (h : CompletesOk i s t) (ht : t.ill = true) :
    s.ill = true :=
  Bool.and_elim_left (h.ill ▸ ht)

/-- The three ways an instruction can end: SETD above 100 raises RangeError, RD with the reserved selector has its word's
meaning (log 12), and everything else completes with OK. -/
inductive ExecEnds (i : Instr) (s : State) : State → Prop
  | rangeError (h : ∃ v : Imm, i = .setd v ∧ 100 < v.toNat) : ExecEnds i s (s.raise .rangeError)
  | reserved (h : i = .rd 15) : ExecEnds i s (s.raise .illegal)
  | ok {t : State} (h : CompletesOk i s t) : ExecEnds i s t

/-- The inversion of `exec`: it always answers a next state, in one of the three ways. -/
theorem exec_cases (i : Instr) (s : State) : ∃ t, exec i s = .next t ∧ ExecEnds i s t := by
  cases i with
  | nop => exact ⟨_, exec_nop s, .ok (completesOk_respond rfl _ rfl rfl rfl)⟩
  | setd v =>
    rcases Nat.lt_or_ge 100 v.toNat with hgt | hle
    · exact ⟨_, exec_setd_outOfRange v s hgt, .rangeError ⟨v, rfl, hgt⟩⟩
    · exact ⟨_, exec_setd_inRange v s hle, .ok (completesOk_respond rfl _ rfl rfl rfl)⟩
  | ramp => exact ⟨_, exec_ramp s, .ok (completesOk_respond rfl _ rfl rfl rfl)⟩
  | tick =>
    rcases Nat.lt_or_ge (s.rampTimer.toNat + 10) 50 with hlt | hge
    · exact ⟨_, exec_tick_waits s hlt, .ok (completesOk_respond rfl _ rfl rfl rfl)⟩
    · exact ⟨_, exec_tick_fires s hge, .ok (completesOk_respond rfl _ rfl rfl rfl)⟩
  | est p => exact ⟨_, exec_est p s, .ok (completesOk_respond rfl _ rfl rfl rfl)⟩
  | fpush v => exact ⟨_, exec_fpush v s, .ok (completesOk_respond rfl _ rfl rfl rfl)⟩
  | sample p => exact ⟨_, exec_sample p s, .ok (completesOk_respond rfl _ rfl rfl rfl)⟩
  | rd sel =>
    by_cases h : sel.toNat = 15
    · obtain rfl : sel = 15 := BitVec.eq_of_toNat_eq h
      exact ⟨_, exec_rd_reserved 15 s rfl, .reserved rfl⟩
    · obtain ⟨r, hr⟩ := selectorReg_isSome sel h
      exact ⟨_, exec_rd sel r s hr, .ok (completesOk_respond rfl _ rfl rfl rfl)⟩
  | clrst => exact ⟨_, exec_clrst s, .ok ⟨rfl, rfl, (Bool.and_false _).symm, (Bool.and_false _).symm⟩⟩

/-! ### The two errors -/

/-- A legal word's instruction is not RD with the reserved selector. -/
theorem ne_rd15_of_decode_ok {cw : Word} {i : Instr} (hd : decode cw = .ok i) : i ≠ .rd 15 := by
  rintro rfl
  obtain ⟨hwf, -⟩ := encode_of_decode_ok hd
  cases hwf

/-- A word with none of R64's shapes decodes. -/
theorem exists_decode_ok_of_not_illegalShape {cw : Word} (h : ¬ IllegalShape cw) : ∃ i, decode cw = .ok i := by
  cases hd : decode cw with
  | ok i => exact ⟨i, rfl⟩
  | error r => exact absurd ((decode_error_iff_illegalShape cw).mp ⟨r, hd⟩) h

/-- Settles O6: the step on an illegal word is O5's; a legal word's instruction raises RangeError or nothing. -/
theorem illegalRaisedByIllegalWordsOnly : Obligations.IllegalRaisedByIllegalWordsOnly := by
  obtain ⟨-, hstepIllegal⟩ := illegalExactlyWhenListed
  refine fun s cw rest hp => ⟨hstepIllegal s cw rest hp, fun hlegal => ?_⟩
  obtain ⟨i, hd⟩ := exists_decode_ok_of_not_illegalShape hlegal
  obtain ⟨t, hexec, hends⟩ := exec_cases i (s.accept rest)
  refine ⟨t, (step_of_decode_ok hp hd).trans hexec, ?_⟩
  cases hends with
  | rangeError _ => simp [errorCode]
  | reserved hrd => exact absurd hrd (ne_rd15_of_decode_ok hd)
  | ok hok => exact ⟨by simp [hok.rcode], hok.ill_of_ill⟩

/-- Settles O19: of the three ways an instruction can end, only SETD above 100 answers RANGE or sets RERR. -/
theorem rangeErrorRaisedBySetdOnly : Obligations.RangeErrorRaisedBySetdOnly := by
  refine fun i s => ⟨?_, fun hnot => ?_⟩
  · rintro ⟨v, rfl, hv⟩
    rw [exec_setd_outOfRange v s hv, raise_rangeError_eq]
  · obtain ⟨t, hexec, hends⟩ := exec_cases i s
    refine ⟨t, hexec, ?_⟩
    cases hends with
    | rangeError hsetd => exact absurd hsetd hnot
    | reserved _ => simp [errorCode]
    | ok hok => exact ⟨by simp [hok.rcode], hok.rerr_of_rerr⟩

/-! ### A result of its own -/

/-- No instruction reads RCODE or RDATA. -/
theorem exec_respond (i : Instr) (s : State) (c : RCode) (d : Word) : exec i (s.respond c d) = exec i s := by
  cases i <;> rfl

/-- The step on a command word does not depend on the result that stands before it. -/
theorem step_respond {s : State} {cw : Word} {rest : List HostInput} (hp : s.pending = .command cw :: rest) (c : RCode)
    (d : Word) : step (s.respond c d) = step s := by
  cases hd : decode cw with
  | ok i =>
    calc step (s.respond c d)
      _ = exec i ((s.accept rest).respond c d) := step_of_decode_ok hp hd
      _ = exec i (s.accept rest) := exec_respond i _ c d
      _ = step s := (step_of_decode_ok hp hd).symm
  | error r => exact (step_of_decode_error (s := s.respond c d) hp hd).trans (step_of_decode_error hp hd).symm

theorem exec_keeps_pending (i : Instr) (s : State) : ∃ t, exec i s = .next t ∧ t.pending = s.pending := by
  obtain ⟨t, hexec, hends⟩ := exec_cases i s
  refine ⟨t, hexec, ?_⟩
  cases hends with
  | rangeError _ => exact State.raise_pending s .rangeError
  | reserved _ => exact State.raise_pending s .illegal
  | ok hok => exact hok.pending

/-- Every command word is taken from the stream and answered in one step (R126). -/
theorem step_command_completes {s : State} {cw : Word} {rest : List HostInput} (hp : s.pending = .command cw :: rest) :
    ∃ t, step s = .next t ∧ t.pending = rest := by
  cases hd : decode cw with
  | ok i => rw [step_of_decode_ok hp hd]; exact exec_keeps_pending i (s.accept rest)
  | error r => exact ⟨_, step_of_decode_error hp hd, rfl⟩

/-- Settles O13: every word is answered, and the answer reads neither RCODE nor RDATA. -/
theorem everyWordCompletesInOneStep : Obligations.EveryWordCompletesInOneStep := by
  intro s cw rest hp
  obtain ⟨t, hstep, hpending⟩ := step_command_completes hp
  exact ⟨t, hstep, hpending, fun c d => (step_respond hp c d).trans hstep⟩

/-! ### The table of results -/

/-- SETD's row of R102. -/
theorem exec_setd_rcode_rdata (v : Imm) (s : State) : ∃ t, exec (.setd v) s = .next t ∧
    if v.toNat ≤ 100 then t.rcode.bits = 0 ∧ t.rdata.toNat = v.toNat
    else t.rcode.bits = 1 ∧ t.rdata.toNat = s.desired.toNat ∧ t.desired = s.desired := by
  split
  next hle => exact ⟨_, exec_setd_inRange v s hle, rfl, immValue_toNat v⟩
  next hgt =>
    exact ⟨_, exec_setd_outOfRange v s (Nat.not_le.mp hgt), rfl, BitVec.toNat_setWidth_of_le (by decide), rfl⟩

/-- TICK's row of R102: the motor word, with FIRED set from 40 ms on. -/
theorem exec_tick_rcode_rdata (s : State) : ∃ t, exec .tick s = .next t ∧ t.rcode.bits = 0 ∧
    t.rdata.toNat = t.duty.toNat * 2 ^ 16 + (if 40 ≤ s.rampTimer.toNat then 2 ^ 8 else 0) + t.actual.toNat := by
  split
  next hfires => exact ⟨_, exec_tick_fires s (by omega), rfl, motorWord_toNat _ true⟩
  next hwaits => exact ⟨_, exec_tick_waits s (by omega), rfl, motorWord_toNat _ false⟩

/-- Settles O27: each row is the meaning of its command, read at RCODE and RDATA. -/
theorem resultTable : Obligations.ResultTable := by
  refine ⟨fun s => ⟨_, exec_nop s, rfl, rfl⟩, exec_setd_rcode_rdata,
    fun s => ⟨_, exec_ramp s, rfl, motorWord_toNat _ true⟩, exec_tick_rcode_rdata,
    fun p s => ⟨_, exec_est p s, rfl, estimate_toNat s.cfg p⟩, fun v s => ⟨_, exec_fpush v s, rfl, rfl⟩,
    fun p s => ⟨_, exec_sample p s, rfl, rfl⟩, fun sel s hsel => ?rd, fun s => ⟨_, exec_clrst s, rfl, rfl⟩,
    fun s cw rest hp hshape => ?illegal⟩
  case rd =>
    obtain ⟨r, hr⟩ := selectorReg_isSome sel hsel
    exact ⟨_, r, exec_rd sel r s hr, rfl, hr, rfl⟩
  case illegal =>
    obtain ⟨-, hstepIllegal⟩ := illegalExactlyWhenListed
    exact ⟨_, hstepIllegal s cw rest hp hshape, rfl, rfl⟩

end Sys2Proof.Machine
end

section
/-! PROOFS. Reset: the step that takes one, and the state it leaves (70_reset_and_hazards.md R127). -/

namespace Sys2Proof.Machine

/-! ### The state a reset leaves -/

theorem resetWith_hist (c : Cfg) (i : Fin 4) : (State.resetWith c).hist[i.val] = 0 := by
  have hslots : ∀ j : Fin 4, (#v[0, 0, 0, 0] : Vector Word 4)[j.val] = 0 := by decide
  exact hslots i

@[simp] theorem State.resetBlock_cfg (s : State) (rest : List HostInput) : (s.resetBlock rest).cfg = s.cfg := rfl

/-- Every row of R127's table, field by field, the history slot by slot. -/
theorem resetBlock_atReset (s : State) (rest : List HostInput) : (s.resetBlock rest).AtReset :=
  ⟨rfl, rfl, rfl, rfl, rfl, rfl, resetWith_hist s.cfg, rfl, rfl, rfl, rfl, rfl, rfl, rfl, rfl, rfl⟩

/-- The machine begins where a reset leaves it, with nothing presented. -/
theorem reset_eq_resetBlock : State.reset = State.reset.resetBlock [] := rfl

/-- STATUS of a state at the reset values: of its four bits ATTGT alone is set. -/
theorem statusWord_of_atReset {t : State} (h : t.AtReset) : t.statusWord = 0x00000008 := by
  obtain ⟨-, -, -, -, -, -, -, -, -, -, hrerr, hill, hfull, hatTarget, -, -⟩ := h
  apply BitVec.eq_of_toNat_eq
  rw [statusWord_toNat, hrerr, hill, hfull, hatTarget]
  rfl

/-! ### The step that takes a reset -/

/-- A step on a reset is `resetBlock`, with or without a command presented together with it (R127, R129). -/
theorem step_of_reset {s : State} {c : Option Word} {rest : List HostInput} (hp : s.pending = .reset c :: rest) :
    step s = .next (s.resetBlock rest) := by
  simp only [step, hp]

/-- Settles O15: the reset step is `resetBlock`, which holds R127's values and keeps the configuration. -/
theorem resetSetsEveryRegister : Obligations.ResetSetsEveryRegister := by
  refine ⟨?initial, fun s c rest hp => ?resetStep⟩
  case initial =>
    rw [reset_eq_resetBlock]
    exact resetBlock_atReset State.reset []
  case resetStep =>
    have hreset := resetBlock_atReset s rest
    have hcfg := State.resetBlock_cfg s rest
    exact ⟨s.resetBlock rest, step_of_reset hp, hreset, hcfg, statusWord_of_atReset hreset,
      congrArg (fun c : Cfg => c.ppr.setWidth 32) hcfg, congrArg (fun c : Cfg => c.maxDuty.setWidth 32) hcfg⟩

end Sys2Proof.Machine
end

section
/-! PROOFS. Words and lines: encoding and decoding are inverse, operands are the fields' values, and what the assembler
writes (30_encoding.md R58 to R72). -/

namespace Sys2Proof.Machine

/-! ### Encoding and decoding -/

/-- Settles O2: each field of an assembled word is read back. -/
theorem decodeOfEncode : Obligations.DecodeOfEncode := decode_encode

/-- Settles O3: the decoder's inversion, on its accepting side. -/
theorem encodeOfDecode : Obligations.EncodeOfDecode := fun _ _ => encode_of_decode_ok

theorem word_toNat_mod (o : BitVec 4) (v : Imm) : (Field.word o v).toNat % 2 ^ 24 = v.toNat := by
  rw [← Field.imm_toNat, Field.imm_word]

/-- The low 24 bits of a legal word are the operand, when the instruction's encoding has one there. -/
theorem toNat_mod_of_decode_ok {cw : Word} {i : Instr} {o : BitVec 4} {v : Imm} (hd : decode cw = .ok i)
    (henc : encode i = Field.word o v) : cw.toNat % 2 ^ 24 = v.toNat := by
  obtain ⟨-, hcw⟩ := encode_of_decode_ok hd
  rw [← hcw, henc, word_toNat_mod]

/-- Settles O4: a decoded word is its instruction's encoding, whose IMM is the operand. -/
theorem operandIsTheFieldValue : Obligations.OperandIsTheFieldValue := by
  refine fun cw => ⟨fun v h => ?immediate, fun sel h => ?selector⟩
  case immediate =>
    rw [immValue_toNat]
    rcases h with h | h | h | h
    all_goals exact (toNat_mod_of_decode_ok h rfl).symm
  case selector =>
    have himm := toNat_mod_of_decode_ok h rfl
    rw [BitVec.toNat_setWidth_of_le (by decide)] at himm
    omega

/-- Settles O1: the legal words are encodings, and each illegal one is refused at its own check. -/
theorem specWordsDecode : Obligations.SpecWordsDecode :=
  ⟨decode_encode .nop rfl, decode_encode (.setd 75) rfl, decode_encode .ramp rfl, decode_encode .tick rfl,
    decode_encode (.est 100) rfl, decode_encode (.fpush 10) rfl, decode_encode (.sample 0xFFFFFF) rfl,
    decode_encode (.rd 14) rfl, decode_encode .clrst rfl, by decide, by decide, by decide, by decide, by decide⟩

/-! ### The assembler emits legal words -/

theorem mem_of_lookup {α β : Type} [BEq α] [LawfulBEq α] {l : List (α × β)} {a : α} {b : β}
    (h : l.lookup a = some b) : (a, b) ∈ l := by
  obtain ⟨l₁, l₂, rfl, -⟩ := List.lookup_eq_some_iff.mp h
  simp

theorem ok_of_map_eq_ok {ε α β : Type} {x : Except ε α} {f : α → β} {b : β} (h : x.map f = .ok b) :
    ∃ a, x = .ok a ∧ f a = b := by
  cases x with
  | error e => cases h
  | ok a => exact ⟨a, rfl, Except.ok.inj h⟩

theorem asmFormatN_wellFormed : ∀ p ∈ asmFormatN, p.2.wellFormed = true := by decide

theorem asmFormatI_wellFormed {p : String × (Imm → Instr)} (h : p ∈ asmFormatI) (v : Imm) :
    (p.2 v).wellFormed = true := by
  simp only [asmFormatI, List.mem_cons, List.not_mem_nil, or_false] at h
  rcases h with rfl | rfl | rfl | rfl
  all_goals rfl

theorem asmRegNames_lt : ∀ p ∈ asmRegNames, p.2 < 15 := by decide

/-- The assembler accepts no selector that RD's encoding reserves (R70). -/
theorem asmSelector_lt {ops : List (List Char)} {n : Nat} (h : asmSelector ops = .ok n) : n < 15 := by
  unfold asmSelector at h
  split at h
  next => cases h
  next v _ =>
    split at h
    next k hname =>
      cases h
      exact asmRegNames_lt _ (mem_of_lookup hname)
    next =>
      split at h
      next => cases h
      next k _ =>
        split at h
        next hk =>
          cases h
          exact hk
        next => cases h

/-- A command the assembler accepts has a legal encoding. -/
theorem asmCommand_wellFormed {m : List Char} {ops : List (List Char)} {i : Instr} (h : asmCommand m ops = .ok i) :
    i.wellFormed = true := by
  unfold asmCommand at h
  simp only at h
  split at h
  next j hN =>
    split at h
    next =>
      cases h
      exact asmFormatN_wellFormed _ (mem_of_lookup hN)
    next => cases h
  next =>
    split at h
    next mk hI =>
      obtain ⟨n, -, rfl⟩ := ok_of_map_eq_ok h
      exact asmFormatI_wellFormed (mem_of_lookup hI) _
    next =>
      split at h
      next =>
        obtain ⟨n, hn, rfl⟩ := ok_of_map_eq_ok h
        have hlt := asmSelector_lt hn
        simp only [Instr.wellFormed, BitVec.toNat_ofNat, bne_iff_ne]
        omega
      next => cases h

/-- Settles O8: the line's word is the encoding of an accepted command. -/
theorem assemblerEmitsLegalWords : Obligations.AssemblerEmitsLegalWords := by
  intro line m ops cw ht hm hline
  rw [assembleLine_of_tokens ht hm] at hline
  obtain ⟨i, hcmd, hcw⟩ := ok_of_map_eq_ok hline
  obtain rfl := Option.some.inj hcw
  have hwf := asmCommand_wellFormed hcmd
  exact ⟨i, hwf, decode_encode i hwf⟩

/-! ### The assembler writes the literal -/

/-- The names of format I are found in their own table and not in format N's, and no spelling of one is `.word`. -/
theorem asmFormatI_lookup {name : String} {mk : Imm → Instr} (h : (name, mk) ∈ asmFormatI) :
    asmFormatN.lookup name = none ∧ asmFormatI.lookup name = some mk ∧
      name ≠ String.ofList (".word".toList.map Char.toUpper) := by
  simp only [asmFormatI, List.mem_cons, List.not_mem_nil, or_false, Prod.mk.injEq] at h
  rcases h with ⟨rfl, rfl⟩ | ⟨rfl, rfl⟩ | ⟨rfl, rfl⟩ | ⟨rfl, rfl⟩
  all_goals exact ⟨by decide, rfl, by decide⟩

theorem asmBounded_literal {bound n : Nat} {v : List Char} (h : asmLiteral v = some n) :
    asmBounded bound [v] = if n < bound then .ok n else .error .valueOutOfRange := by
  simp only [asmBounded, asmOperand, h]

/-- A format I mnemonic with one literal (R69, R70). -/
theorem asmCommand_formatI {m v : List Char} {name : String} {mk : Imm → Instr} {n : Nat}
    (hN : asmFormatN.lookup name = none) (hI : asmFormatI.lookup name = some mk)
    (hm : String.ofList (m.map Char.toUpper) = name) (hv : asmLiteral v = some n) :
    asmCommand m [v] = if n < 2 ^ 24 then .ok (mk (BitVec.ofNat 24 n)) else .error .valueOutOfRange := by
  simp only [asmCommand, hm, hN, hI, asmBounded_literal hv]
  split
  next => rfl
  next => rfl

/-- Settles O9: the operand's bound is 2^24, and the mnemonic is none of `.word`'s spellings. -/
theorem assemblerWritesTheLiteral : Obligations.AssemblerWritesTheLiteral := by
  intro line m v name mk n hmem ht hname hv
  obtain ⟨hN, hI, hne⟩ := asmFormatI_lookup hmem
  have hm : String.ofList m ≠ ".word" := by
    intro hw
    rw [← hw, String.toList_ofList] at hne
    exact hne hname.symm
  rw [assembleLine_of_tokens ht hm, asmCommand_formatI hN hI hname hv]
  have hbound : n < 2 ^ 24 ↔ n ≤ 16777215 := by omega
  simp only [hbound]
  split
  next => rfl
  next => rfl

end Sys2Proof.Machine
end

section
/-! PROOFS. What an instruction and a step can do, said once, and what they leave unchanged (10_state.md R18 to R38). -/

namespace Sys2Proof.Machine

/-! ### The inversion of an instruction -/

/-- Every way an instruction can answer, as the state the shared operations build. -/
inductive ExecAnswer (s : State) : Instr → State → Prop
  | nop : ExecAnswer s .nop (s.respond .ok 0)
  | setd {v : Imm} (h : v.toNat ≤ 100) :
      ExecAnswer s (.setd v) ((s.writeDesired (v.extractLsb' 0 7)).respond .ok (immValue v))
  | setdRange {v : Imm} (h : 100 < v.toNat) : ExecAnswer s (.setd v) (s.raise .rangeError)
  | ramp : ExecAnswer s .ramp (s.rampStep.respond .ok (s.rampStep.motorWord true))
  | tickFires (h : 50 ≤ s.rampTimer.toNat + 10) :
      ExecAnswer s .tick ((s.writeTimer 0).rampStep.respond .ok ((s.writeTimer 0).rampStep.motorWord true))
  | tickWaits (h : s.rampTimer.toNat + 10 < 50) :
      ExecAnswer s .tick ((s.writeTimer (BitVec.ofNat 8 (s.rampTimer.toNat + 10))).respond .ok
        ((s.writeTimer (BitVec.ofNat 8 (s.rampTimer.toNat + 10))).motorWord false))
  | est {p : Imm} {r : Word} (h : r.toNat = p.toNat * 60 / s.cfg.ppr.toNat) :
      ExecAnswer s (.est p) ((s.writeEst r).respond .ok r)
  | fpush {v : Imm} :
      ExecAnswer s (.fpush v) ((s.pushAverage (immValue v)).respond .ok (s.pushAverage (immValue v)).rpmAvg)
  | sample {p : Imm} {r : Word} (h : r.toNat = p.toNat * 60 / s.cfg.ppr.toNat) :
      ExecAnswer s (.sample p)
        (((s.writeEst r).pushAverage r).respond .ok ((s.writeEst r).pushAverage r).rpmAvg)
  | rd {sel : Selector} {r : Reg} (h : selectorReg sel = some r) :
      ExecAnswer s (.rd sel) (s.respond .ok (s.readReg r))
  | rdReserved : ExecAnswer s (.rd 15) (s.raise .illegal)
  | clrst : ExecAnswer s .clrst (s.clearSticky.respond .ok s.clearSticky.statusWord)

theorem exec_exists_answer (i : Instr) (s : State) : ∃ t, exec i s = .next t ∧ ExecAnswer s i t := by
  cases i with
  | nop => exact ⟨_, exec_nop s, .nop⟩
  | setd v =>
    rcases Nat.lt_or_ge 100 v.toNat with hgt | hle
    · exact ⟨_, exec_setd_outOfRange v s hgt, .setdRange hgt⟩
    · exact ⟨_, exec_setd_inRange v s hle, .setd hle⟩
  | ramp => exact ⟨_, exec_ramp s, .ramp⟩
  | tick =>
    rcases Nat.lt_or_ge (s.rampTimer.toNat + 10) 50 with hlt | hge
    · exact ⟨_, exec_tick_waits s hlt, .tickWaits hlt⟩
    · exact ⟨_, exec_tick_fires s hge, .tickFires hge⟩
  | est p => exact ⟨_, exec_est p s, .est (estimate_toNat s.cfg p)⟩
  | fpush v => exact ⟨_, exec_fpush v s, .fpush⟩
  | sample p => exact ⟨_, exec_sample p s, .sample (estimate_toNat s.cfg p)⟩
  | rd sel =>
    by_cases h : sel.toNat = 15
    · obtain rfl : sel = 15 := BitVec.eq_of_toNat_eq h
      exact ⟨_, exec_rd_reserved 15 s rfl, .rdReserved⟩
    · obtain ⟨r, hr⟩ := selectorReg_isSome sel h
      exact ⟨_, exec_rd sel r s hr, .rd hr⟩
  | clrst => exact ⟨_, exec_clrst s, .clrst⟩

/-- The inversion of `exec`. -/
theorem exec_answer {i : Instr} {s t : State} (h : exec i s = .next t) : ExecAnswer s i t := by
  obtain ⟨u, hexec, hanswer⟩ := exec_exists_answer i s
  rw [h] at hexec
  cases hexec
  exact hanswer

/-! ### The registers an instruction leaves unchanged

One case per listed writer; every other answer leaves the registers as they were by its form. -/

variable {i : Instr} {s t : State}

theorem exec_keeps_desired (h : exec i s = .next t) (hi : i.mnemonic ≠ "SETD") : t.desired = s.desired := by
  cases exec_answer h with
  | setd | setdRange => exact absurd rfl hi
  | _ => rfl

theorem exec_keeps_actuator (h : exec i s = .next t) (hi : i.mnemonic ∉ ["RAMP", "TICK"]) :
    t.actual = s.actual ∧ t.duty = s.duty ∧ t.actWe = s.actWe ∧ t.events = s.events := by
  cases exec_answer h with
  | ramp | tickFires | tickWaits => exact absurd (by decide) hi
  | _ => exact ⟨rfl, rfl, rfl, rfl⟩

theorem exec_keeps_rampTimer (h : exec i s = .next t) (hi : i.mnemonic ≠ "TICK") : t.rampTimer = s.rampTimer := by
  cases exec_answer h with
  | tickFires | tickWaits => exact absurd rfl hi
  | _ => rfl

theorem exec_keeps_rpmEst (h : exec i s = .next t) (hi : i.mnemonic ∉ ["EST", "SAMPLE"]) : t.rpmEst = s.rpmEst := by
  cases exec_answer h with
  | est | sample => exact absurd (by simp [Instr.mnemonic]) hi
  | _ => rfl

theorem exec_keeps_filter (h : exec i s = .next t) (hi : i.mnemonic ∉ ["FPUSH", "SAMPLE"]) :
    t.rpmAvg = s.rpmAvg ∧ t.hist = s.hist ∧ t.widx = s.widx ∧ t.fill = s.fill := by
  cases exec_answer h with
  | fpush | sample => exact absurd (by simp [Instr.mnemonic]) hi
  | _ => exact ⟨rfl, rfl, rfl, rfl⟩

theorem exec_keeps_rerr (h : exec i s = .next t) (hi : i.mnemonic ≠ "SETD") :
    t.rerr = (s.rerr && i.mnemonic != "CLRST") := by
  cases exec_answer h with
  | setd | setdRange => exact absurd rfl hi
  | clrst => exact (Bool.and_false _).symm
  | rdReserved => simp [Instr.mnemonic]
  | _ => exact (Bool.and_true _).symm

theorem exec_keeps_ill (h : exec i s = .next t) (hi : i.wellFormed = true) :
    t.ill = (s.ill && i.mnemonic != "CLRST") := by
  cases exec_answer h with
  | rdReserved => cases hi
  | clrst => exact (Bool.and_false _).symm
  | setdRange => simp [Instr.mnemonic]
  | _ => exact (Bool.and_true _).symm

theorem exec_keeps_cfg (h : exec i s = .next t) : t.cfg = s.cfg := by
  cases exec_answer h with
  | _ => rfl

theorem exec_next_keeps_pending (h : exec i s = .next t) : t.pending = s.pending := by
  obtain ⟨u, hexec, hpending⟩ := exec_keeps_pending i s
  rw [h] at hexec
  cases hexec
  exact hpending

/-- Settles O29: the frames of the registers, together. -/
theorem registersWrittenOnlyByTheirCommands : Obligations.RegistersWrittenOnlyByTheirCommands := fun _ _ _ h =>
  ⟨fun hi => ⟨exec_keeps_desired h hi, exec_keeps_rerr h hi⟩, exec_keeps_actuator h, exec_keeps_rampTimer h,
    exec_keeps_rpmEst h, exec_keeps_filter h, exec_keeps_ill h, exec_keeps_cfg h, exec_next_keeps_pending h⟩

/-! ### The inversion of a step -/

/-- What a step on a command word answers: the meaning of the instruction the word decodes to, or Illegal raised. -/
inductive CommandAnswer (s : State) (cw : Word) (rest : List HostInput) (t : State) : Prop
  | legal (i : Instr) (hd : decode cw = .ok i) (hexec : exec i (s.accept rest) = .next t)
  | illegal (r : IllegalWord) (hd : decode cw = .error r) (ht : t = (s.accept rest).raise .illegal)

/-- What a step answers (R18, R125). -/
inductive StepAnswer (s t : State) : Prop
  | idle (ht : t = s)
  | reset (rest : List HostInput) (ht : t = s.resetBlock rest)
  | command (cw : Word) (rest : List HostInput) (h : CommandAnswer s cw rest t)

theorem step_of_command {cw : Word} {rest : List HostInput} (hp : s.pending = .command cw :: rest)
    (h : step s = .next t) : CommandAnswer s cw rest t := by
  cases hd : decode cw with
  | ok i =>
    rw [step_of_decode_ok hp hd] at h
    exact .legal i hd h
  | error r =>
    rw [step_of_decode_error hp hd] at h
    cases h
    exact .illegal r hd rfl

theorem step_of_idle (hp : s.pending = []) : step s = .next s := by
  simp only [step, hp]

theorem step_answer (h : step s = .next t) : StepAnswer s t := by
  match hp : s.pending with
  | [] =>
    rw [step_of_idle hp] at h
    cases h
    exact .idle rfl
  | .reset c :: rest =>
    rw [step_of_reset hp] at h
    cases h
    exact .reset rest rfl
  | .command cw :: rest => exact .command cw rest (step_of_command hp h)

end Sys2Proof.Machine
end

section
/-! PROOFS. Steps that need no meaning: the empty stream, a reset, the decoded command, and the configuration
(00_scope.md R7, R8, R17; 10_state.md R18; 60_exceptions.md R125; 70_reset_and_hazards.md R129). -/

namespace Sys2Proof.Machine

/-- Settles O12: the inversion's legal case, as an equation. -/
theorem stepRunsDecodedCommand : Obligations.StepRunsDecodedCommand := fun _ _ _ _ hp hd => step_of_decode_ok hp hd

/-- Settles O14: the empty stream's case of the step. -/
theorem idleBlockHoldsItsState : Obligations.IdleBlockHoldsItsState := fun _ => step_of_idle

/-- Settles O16: `resetBlock` does not see the command presented with the reset. -/
theorem resetDiscardsCoincidentCommand : Obligations.ResetDiscardsCoincidentCommand := by
  intro s cw rest hp
  have hstep := step_of_reset hp
  have hstepAlone := step_of_reset (s := { s with pending := .reset none :: rest }) rfl
  exact ⟨hstep.trans hstepAlone.symm, s.resetBlock rest, hstep, rfl, rfl, rfl⟩

/-- Settles O30: no instruction, no error and no reset writes the configuration. -/
theorem configurationNeverChanges : Obligations.ConfigurationNeverChanges := by
  intro s t h
  rcases step_answer h with rfl | ⟨rest, rfl⟩ | ⟨cw, rest, ⟨i, -, hexec⟩ | ⟨r, -, rfl⟩⟩
  · rfl
  · rfl
  · exact (exec_keeps_cfg hexec).trans (s.accept_cfg rest)
  · rfl

/-- The two bounds of R7 and R8 are the condition `Cfg.make?` tests. -/
theorem make?_isSome_iff (p d : Nat) :
    (Cfg.make? p d).isSome = true ↔ (1 ≤ p ∧ p ≤ 65535) ∧ (1 ≤ d ∧ d ≤ 65535) := by
  unfold Cfg.make?
  split
  next h => simpa using h
  next h => simpa using h

/-- Both values fit their 16-bit registers. -/
theorem make?_values {p d : Nat} {c : Cfg} (h : Cfg.make? p d = some c) : c.ppr.toNat = p ∧ c.maxDuty.toNat = d := by
  unfold Cfg.make? at h
  split at h
  next hrange =>
    cases h
    simp only [BitVec.toNat_ofNat]
    omega
  next => cases h

/-- Settles O11: `Cfg.make?` tests the two ranges and narrows nothing away. -/
theorem configurationRange : Obligations.ConfigurationRange := fun p d => ⟨make?_isSome_iff p d, fun _ => make?_values⟩

end Sys2Proof.Machine
end

section
/-! PROOFS. Errors over a step: what an error leaves unchanged, when the sticky bits change, and a host that sends no
SETD above 100 (60_exceptions.md R103 to R105, R119; 10_state.md R32, R33). -/

namespace Sys2Proof.Machine

/-! ### Conforming instructions -/

/-- An instruction with a legal encoding, and in range if it is a SETD, raises nothing. -/
theorem exec_completesOk {i : Instr} {s t : State} (hwf : i.wellFormed = true)
    (hrange : ∀ v : Imm, i = .setd v → v.toNat ≤ 100) (h : exec i s = .next t) : CompletesOk i s t := by
  obtain ⟨u, hexec, hends⟩ := exec_cases i s
  rw [h] at hexec
  cases hexec
  cases hends with
  | rangeError hset =>
    obtain ⟨v, hv, hgt⟩ := hset
    have := hrange v hv
    omega
  | reserved hrd =>
    subst hrd
    cases hwf
  | ok hok => exact hok

/-- What a step on a command word ends in, by its word: R104, R105, or completion. -/
inductive CommandEnds (s : State) (cw : Word) (rest : List HostInput) (t : State) : Prop
  | illegal (hshape : IllegalShape cw) (hd : ∀ i, decode cw ≠ .ok i) (ht : t = (s.accept rest).raise .illegal)
  | rangeError (v : Imm) (hd : decode cw = .ok (.setd v)) (hgt : 100 < v.toNat)
      (ht : t = (s.accept rest).raise .rangeError)
  | ok (i : Instr) (hd : decode cw = .ok i) (hrange : ∀ v : Imm, i = .setd v → v.toNat ≤ 100)
      (hok : CompletesOk i (s.accept rest) t)

theorem step_command_ends {s t : State} {cw : Word} {rest : List HostInput} (hp : s.pending = .command cw :: rest)
    (h : step s = .next t) : CommandEnds s cw rest t := by
  rcases step_of_command hp h with ⟨i, hd, hexec⟩ | ⟨r, hd, ht⟩
  · by_cases hset : ∃ v : Imm, i = .setd v ∧ 100 < v.toNat
    · obtain ⟨v, rfl, hgt⟩ := hset
      rw [exec_setd_outOfRange v _ hgt] at hexec
      cases hexec
      exact .rangeError v hd hgt rfl
    · have hrange : ∀ v : Imm, i = .setd v → v.toNat ≤ 100 := fun v hv => Nat.not_lt.mp fun hgt => hset ⟨v, hv, hgt⟩
      obtain ⟨hwf, -⟩ := encode_of_decode_ok hd
      exact .ok i hd hrange (exec_completesOk hwf hrange hexec)
  · exact .illegal ((decode_error_iff_illegalShape cw).mp ⟨r, hd⟩) (fun i hi => by rw [hd] at hi; cases hi) ht

/-! ### Precision -/

/-- Settles O28: an answer other than OK is `raise`, which writes the sticky bit of its error and the result. -/
theorem errorsArePrecise : Obligations.ErrorsArePrecise := by
  intro s t cw rest hp h hne
  cases step_command_ends hp h with
  | illegal _ _ ht =>
    subst ht
    exact ⟨rfl, (fun hrange => by cases hrange), fun _ => ⟨rfl, rfl⟩⟩
  | rangeError v _ _ ht =>
    subst ht
    exact ⟨rfl, fun _ => ⟨rfl, rfl⟩, (fun hill => by cases hill)⟩
  | ok i _ _ hok => exact absurd hok.rcode hne

/-! ### The sticky bits -/

theorem not_illegalShape_of_decode_ok {cw : Word} {i : Instr} (hd : decode cw = .ok i) : ¬ IllegalShape cw := by
  obtain ⟨hwf, rfl⟩ := encode_of_decode_ok hd
  exact not_illegalShape_encode i hwf

/-- Settles O31: each error sets its own bit, CLRST clears both, and every other completion keeps them. -/
theorem stickyBitsHoldUntilCleared : Obligations.StickyBitsHoldUntilCleared := by
  intro s t cw rest hp h
  cases step_command_ends hp h with
  | illegal hshape hd ht =>
    subst ht
    simp [hshape, hd]
  | rangeError v hd hgt ht =>
    subst ht
    simp [hd, hgt, not_illegalShape_of_decode_ok hd]
  | ok i hd hrange hok =>
    have hset : ¬ ∃ v : Imm, decode cw = .ok (.setd v) ∧ 100 < v.toNat := by
      rintro ⟨v, hv, hgt⟩
      have := hrange v (Except.ok.inj (hd.symm.trans hv))
      omega
    rw [or_iff_right hset, or_iff_right (not_illegalShape_of_decode_ok hd), hok.rerr, hok.ill]
    simp [hd]

/-! ### A conforming host -/

/-- Settles O46: with its SETDs in range a word ends in Illegal or completes. -/
theorem conformingHostGetsNoRangeError : Obligations.ConformingHostGetsNoRangeError := by
  intro s t cw rest hp hconf h
  cases step_command_ends hp h with
  | illegal _ _ ht =>
    subst ht
    simp [errorCode]
  | rangeError v hd hgt _ =>
    have := hconf v hd
    omega
  | ok i _ _ hok => exact ⟨by simp [hok.rcode], hok.rerr_of_rerr⟩

end Sys2Proof.Machine
end

section
/-! PROOFS. The ramp over a command: its one ActuatorWrite, the unit it moves ACTUAL by, and the SETD before it
(43_ramp.md R92 to R95). -/

namespace Sys2Proof.Machine

/-! ### The strobe and its event -/

/-- The instruction runs a ramp step from `s`: RAMP, or a TICK that reaches 50 ms (R89, R90). -/
def RunsRampStep (i : Instr) (s : State) : Prop := i = .ramp ∨ (i = .tick ∧ 40 ≤ s.rampTimer.toNat)

theorem exec_actuatorWrite {i : Instr} {s t : State} (h : exec i s = .next t) (hi : RunsRampStep i s) :
    t.events = s.events ++ [t.duty] ∧ t.actWe = true := by
  cases exec_answer h with
  | ramp | tickFires => exact ⟨rfl, rfl⟩
  | tickWaits hlt =>
    rcases hi with hi | ⟨-, hge⟩
    · cases hi
    · omega
  | _ =>
    rcases hi with hi | ⟨hi, -⟩
    all_goals cases hi

theorem exec_no_actuatorWrite {i : Instr} {s t : State} (h : exec i s = .next t) (hi : ¬ RunsRampStep i s) :
    t.events = s.events ∧ t.actWe = s.actWe ∧ t.duty = s.duty := by
  cases exec_answer h with
  | ramp => exact absurd (.inl rfl) hi
  | tickFires hge => exact absurd (.inr ⟨rfl, by omega⟩) hi
  | _ => exact ⟨rfl, rfl, rfl⟩

/-- Settles O32: the strobe is lowered when the word is taken, and the ramp step alone raises it. -/
theorem oneActuatorWritePerRampStep : Obligations.OneActuatorWritePerRampStep := by
  intro s t cw rest hp h
  rcases step_of_command hp h with ⟨i, hd, hexec⟩ | ⟨r, hd, rfl⟩
  · have hiff : (decode cw = .ok .ramp ∨ (decode cw = .ok .tick ∧ 40 ≤ s.rampTimer.toNat)) ↔
        RunsRampStep i (s.accept rest) := by
      simp [hd, RunsRampStep]
    rw [hiff]
    refine ⟨fun hi => ?_, fun hi => ?_⟩
    · obtain ⟨hevents, hactWe⟩ := exec_actuatorWrite hexec hi
      exact ⟨hevents, hactWe, rfl⟩
    · exact exec_no_actuatorWrite hexec hi
  · simp [hd, State.dutyOut]

/-! ### One unit -/

/-- What a ramp step may make of ACTUAL: at most one unit, and not past DESIRED (R93). -/
def MovesAtMostOne (a d a' : Nat) : Prop :=
  a' ≤ a + 1 ∧ a ≤ a' + 1 ∧ (a ≤ d → a ≤ a' ∧ a' ≤ d) ∧ (d ≤ a → d ≤ a' ∧ a' ≤ a)

theorem movesAtMostOne_refl (a d : Nat) : MovesAtMostOne a d a := by
  unfold MovesAtMostOne
  omega

theorem movesAtMostOne_stepToward (a d : BitVec 7) : MovesAtMostOne a.toNat d.toNat (stepToward a d).toNat := by
  rw [stepToward_toNat]
  unfold MovesAtMostOne
  split
  next => omega
  next =>
    split
    next => omega
    next => omega

/-- Settles O33: only a ramp step writes ACTUAL, with `stepToward`. -/
theorem actualMovesByAtMostOne : Obligations.ActualMovesByAtMostOne := by
  intro i s t h
  change MovesAtMostOne s.actual.toNat s.desired.toNat t.actual.toNat
  cases exec_answer h with
  | ramp | tickFires => exact movesAtMostOne_stepToward s.actual s.desired
  | _ => exact movesAtMostOne_refl s.actual.toNat s.desired.toNat

/-! ### SETD, then a ramp step -/

/-- SETD leaves the ramp where it is, and DESIRED holds its value if that is at most 100 and the old one otherwise. -/
theorem exec_setd_ramp (v : Imm) (s : State) : ∃ t, exec (.setd v) s = .next t ∧
    t.desired.toNat = (if v.toNat ≤ 100 then v.toNat else s.desired.toNat) ∧
    t.actual = s.actual ∧ t.duty = s.duty ∧ t.rampTimer = s.rampTimer ∧ t.events = s.events := by
  split
  next hle => exact ⟨_, exec_setd_inRange v s hle, speed_toNat v hle, rfl, rfl, rfl, rfl⟩
  next hgt => exact ⟨_, exec_setd_outOfRange v s (Nat.not_le.mp hgt), rfl, rfl, rfl, rfl, rfl⟩

/-- Settles O45: the ramp step compares with the DESIRED that SETD left. -/
theorem setdActsAtNextRampStep : Obligations.SetdActsAtNextRampStep := by
  intro v s
  obtain ⟨t, hexec, hdesired, hactual, hduty, htimer, hevents⟩ := exec_setd_ramp v s
  obtain ⟨hmoved, -, -⟩ := rampStep_motor t
  refine ⟨t, _, hexec, exec_ramp t, hactual, hduty, htimer, hevents, ?_⟩
  rw [State.respond_actual, hmoved, hactual, hdesired]
  push_cast
  rfl

end Sys2Proof.Machine
end

section
/-! PROOFS. The filter's history: the average between its entries, FILL, and the circular buffer as a queue of the last
four values (42_filter.md R77 to R83). -/

namespace Sys2Proof.Machine

/-! ### The average -/

theorem exists_mean_le {l : List Word} (hl : l ≠ []) :
    ∃ w ∈ l, (l.map BitVec.toNat).sum / l.length ≤ w.toNat := by
  apply List.exists_le_of_sum_le hl (fun _ => (l.map BitVec.toNat).sum / l.length) BitVec.toNat
  rw [List.map_const', List.sum_replicate, smul_eq_mul]
  exact Nat.mul_div_le _ _

theorem exists_le_mean {l : List Word} (hl : l ≠ []) :
    ∃ w ∈ l, w.toNat ≤ (l.map BitVec.toNat).sum / l.length := by
  have hpos := List.length_pos_of_ne_nil hl
  have hsum : (l.map BitVec.toNat).sum < (l.map fun _ => (l.map BitVec.toNat).sum / l.length + 1).sum := by
    rw [List.map_const', List.sum_replicate, smul_eq_mul]
    exact Nat.lt_mul_div_succ _ hpos
  obtain ⟨w, hw, hlt⟩ := List.exists_lt_of_sum_lt BitVec.toNat _ hsum
  exact ⟨w, hw, Nat.lt_succ_iff.mp hlt⟩

/-- The divisor of the average is the number of the valid entries (R79). -/
theorem average_eq_mean {s : State} (h : s.fill.toNat ≤ 4) :
    s.average = (s.validEntries.map BitVec.toNat).sum / s.validEntries.length := by
  rw [validEntries_length, Nat.min_eq_left h, State.average]

theorem push_validEntries_ne_nil (s : State) (v : Word) : (s.push v).validEntries ≠ [] := by
  apply List.ne_nil_of_length_pos
  rw [validEntries_length, push_fill_toNat]
  omega

/-- After a push RPM_AVG is the mean of the valid entries, which there are. -/
theorem pushAverage_between (s : State) (v : Word) :
    (∃ w ∈ (s.pushAverage v).validEntries, (s.pushAverage v).rpmAvg.toNat ≤ w.toNat) ∧
      ∃ w ∈ (s.pushAverage v).validEntries, w.toNat ≤ (s.pushAverage v).rpmAvg.toNat := by
  have hfill := push_fill_toNat s v
  rw [pushAverage_rpmAvg_toNat, average_eq_mean (by omega)]
  exact ⟨exists_mean_le (push_validEntries_ne_nil s v), exists_le_mean (push_validEntries_ne_nil s v)⟩

/-- Settles O36: FPUSH and SAMPLE end in the shared push and average. -/
theorem averageBetweenEntries : Obligations.AverageBetweenEntries := by
  intro i s hi
  obtain ⟨t, hexec, hanswer⟩ := exec_exists_answer i s
  refine ⟨t, hexec, ?_⟩
  cases hanswer with
  | fpush => exact pushAverage_between s _
  | sample _ => exact pushAverage_between (s.writeEst _) _
  | _ => exact absurd hi (by simp [Instr.mnemonic])

/-! ### FILL -/

theorem exec_fill_le {i : Instr} {s t : State} (hf : s.fill.toNat ≤ 4) (h : exec i s = .next t) :
    s.fill.toNat ≤ t.fill.toNat ∧ t.fill.toNat ≤ 4 := by
  cases exec_answer h with
  | fpush | sample =>
    simp only [State.respond_fill, State.pushAverage_fill, push_fill_toNat, State.writeEst_fill]
    omega
  | _ => exact ⟨Nat.le_refl s.fill.toNat, hf⟩

/-- Settles O40: a push raises FILL up to 4, and nothing else writes it. -/
theorem noCommandDecreasesFill : Obligations.NoCommandDecreasesFill := by
  intro s t cw rest hp hf h
  have hfill : s.fill.toNat ≤ t.fill.toNat ∧ t.fill.toNat ≤ 4 := by
    rcases step_of_command hp h with ⟨i, -, hexec⟩ | ⟨r, -, rfl⟩
    · exact exec_fill_le (s := s.accept rest) hf hexec
    · exact ⟨Nat.le_refl s.fill.toNat, hf⟩
  obtain ⟨hle, hle4⟩ := hfill
  refine ⟨hle, fun hfull => ?_⟩
  simp only [State.full, beq_iff_eq] at hfull ⊢
  omega

/-! ### The window -/

/-- The values of the four slots, in the order of the slots. -/
def State.slots (s : State) : List Nat := s.hist.toList.map BitVec.toNat

@[simp] theorem slots_length (s : State) : s.slots.length = 4 := by
  simp [State.slots]

theorem push_slots (s : State) (v : Word) : (s.push v).slots = s.slots.set s.widx.toNat v.toNat := by
  rw [State.slots, State.push_hist, Vector.toList_set, List.map_set, State.slots]

theorem window_of_warmup {s : State} (h : s.fill.toNat < 4) : s.window = s.slots.take s.fill.toNat := by
  simp only [State.window, if_pos h, State.slots]

/-- After the wrap the window is the slots turned to begin at WIDX, the oldest. -/
theorem window_of_full {s : State} (h : s.fill.toNat = 4) : s.window = s.slots.rotate s.widx.toNat := by
  have hw := s.widx.isLt
  rw [List.rotate_eq_drop_append_take (by rw [slots_length]; omega)]
  simp only [State.window, if_neg (by omega : ¬ s.fill.toNat < 4), State.slots]

theorem window_length {s : State} (h : s.fill.toNat ≤ 4) : s.window.length = s.fill.toNat := by
  rcases Nat.lt_or_eq_of_le h with hlt | heq
  · rw [window_of_warmup hlt, List.length_take, slots_length]
    omega
  · rw [window_of_full heq, List.length_rotate, slots_length, heq]

/-- The window holds the valid entries, in another order. -/
theorem window_perm_validEntries {s : State} (h : s.fill.toNat ≤ 4) :
    s.window.Perm (s.validEntries.map BitVec.toNat) := by
  have hvalid : s.validEntries.map BitVec.toNat = s.slots.take s.fill.toNat := List.map_take
  rw [hvalid]
  rcases Nat.lt_or_eq_of_le h with hlt | heq
  · rw [window_of_warmup hlt]
  · rw [window_of_full heq, heq, List.take_of_length_le (slots_length s).le]
    exact List.rotate_perm _ _

theorem average_eq_window_mean {s : State} (h : s.fill.toNat ≤ 4) :
    s.average = s.window.sum / s.window.length := by
  rw [average_eq_mean h, (window_perm_validEntries h).sum_eq, (window_perm_validEntries h).length_eq, List.length_map]

/-! ### A push on the window -/

theorem take_succ_set {l : List Nat} {k : Nat} (v : Nat) (h : k < l.length) :
    (l.set k v).take (k + 1) = l.take k ++ [v] := by
  rw [List.set_eq_take_append_cons_drop, if_pos h, List.take_append, List.take_take, List.length_take]
  simp [Nat.min_eq_left h.le]

/-- Before the wrap WIDX is the slot after the newest, and a push adds to the window. -/
theorem push_window_of_warmup {s : State} (v : Word) (hf : s.fill.toNat < 4) (hw : s.widx.toNat = s.fill.toNat) :
    (s.push v).window = s.window ++ [v.toNat] := by
  have hfill := push_fill_toNat s v
  have htake : (s.push v).slots.take (s.fill.toNat + 1) = s.window ++ [v.toNat] := by
    rw [push_slots, hw, take_succ_set v.toNat (by rw [slots_length]; exact hf), window_of_warmup hf]
  rw [← htake]
  by_cases h3 : s.fill.toNat + 1 < 4
  · rw [window_of_warmup (by omega), hfill, Nat.min_eq_left (by omega)]
  · have hwidx : (s.push v).widx.toNat = 0 := by
      rw [push_widx_toNat]
      omega
    rw [window_of_full (by omega), hwidx, List.rotate_zero, List.take_of_length_le (by rw [slots_length]; omega)]

/-- After the wrap the slot at WIDX is the oldest: a push overwrites it and the next one becomes the oldest. -/
theorem push_window_of_full {s : State} (v : Word) (hf : s.fill.toNat = 4) :
    (s.push v).window = (s.window ++ [v.toNat]).drop 1 := by
  have hlt : s.widx.toNat < s.slots.length := by
    rw [slots_length]
    exact s.widx.isLt
  have hfill : (s.push v).fill.toNat = 4 := by
    rw [push_fill_toNat]
    omega
  calc (s.push v).window
    _ = (s.push v).slots.rotate (s.widx.toNat + 1) := by
      rw [window_of_full hfill, push_widx_toNat, ← slots_length (s.push v), List.rotate_mod]
    _ = s.slots.drop (s.widx.toNat + 1) ++ (s.slots.take s.widx.toNat ++ [v.toNat]) := by
      rw [List.rotate_eq_drop_append_take (by rw [slots_length, ← slots_length s]; exact hlt), push_slots,
        List.drop_set_of_lt (Nat.lt_succ_self _), take_succ_set v.toNat hlt]
    _ = (s.window ++ [v.toNat]).drop 1 := by
      rw [window_of_full hf, List.rotate_eq_drop_append_take hlt.le, List.append_assoc,
        List.drop_append_of_le_length (by rw [List.length_drop]; omega), List.drop_drop]

theorem push_window {s : State} (v : Word) (h : s.FilterIndices) :
    (s.push v).window = lastFour (s.window ++ [v.toNat]) := by
  obtain ⟨hf, hw⟩ := h
  have hlen : (s.window ++ [v.toNat]).length = s.fill.toNat + 1 := by
    rw [List.length_append, window_length hf, List.length_singleton]
  rw [lastFour, hlen]
  rcases Nat.lt_or_eq_of_le hf with hlt | heq
  · rw [push_window_of_warmup v hlt (hw hlt), Nat.sub_eq_zero_of_le (by omega), List.drop_zero]
  · rw [push_window_of_full v heq, heq]

/-- What FPUSH and SAMPLE share, on the window: the value is queued, and RPM_AVG is the mean of the queue. -/
theorem pushAverage_window {s : State} (v : Word) (h : s.FilterIndices) :
    (s.pushAverage v).window = lastFour (s.window ++ [v.toNat]) ∧
      (s.pushAverage v).window.length = min (s.window.length + 1) 4 ∧
      (s.pushAverage v).rpmAvg.toNat = (s.pushAverage v).window.sum / (s.pushAverage v).window.length := by
  have hfill := push_fill_toNat s v
  have hle : (s.push v).fill.toNat ≤ 4 := by omega
  refine ⟨push_window v h, ?_, ?_⟩
  · rw [window_length h.1]
    exact (window_length (s := s.pushAverage v) hle).trans hfill
  · exact (pushAverage_rpmAvg_toNat s v).trans (average_eq_window_mean hle)

/-- Settles O37: both commands are the shared push and average, of a value whose number is the one named. -/
theorem filterIsAverageOfLastFour : Obligations.FilterIsAverageOfLastFour := by
  rintro i v s h (⟨x, rfl, rfl⟩ | ⟨p, rfl, rfl⟩)
  · refine ⟨_, exec_fpush x s, ?_⟩
    rw [← immValue_toNat x]
    exact pushAverage_window (immValue x) h
  · refine ⟨_, exec_sample p s, ?_⟩
    rw [← estimate_toNat s.cfg p]
    exact pushAverage_window (s := s.writeEst _) (BitVec.ofNat 32 (estimate s.cfg p.toNat)) h

end Sys2Proof.Machine
end

section
/-! PROOFS. The invariants R40 to R44, and that a slot not yet valid is zero: they hold at reset, and every step keeps
them (10_state.md section 9, 93_implementation_defined.md section 1). -/

namespace Sys2Proof.Machine

/-! ### At reset -/

/-- The values of R127's table meet every invariant. -/
theorem inv_of_atReset {t : State} (h : t.AtReset) : t.Inv := by
  obtain ⟨hdesired, hactual, hduty, -, hest, havg, hhist, hwidx, hfill, htimer, -⟩ := h
  refine ⟨⟨?_, ?_⟩, ⟨?_, fun _ => ?_⟩, fun j _ => hhist j, ?_, ?_, ?_, ?_, fun j => ?_, ?_⟩
  · simp [hdesired]
  · simp [hactual]
  · simp [hfill]
  · simp [hfill, hwidx]
  · simp [State.Prescaler, htimer]
  · simp [State.DutyConsistent, hduty, hactual]
  · simp [hest]
  · simp [havg]
  · simp [hhist j]
  · simp [hduty]

theorem resetWith_inv (c : Cfg) : (State.resetWith c).Inv :=
  inv_of_atReset (resetBlock_atReset (State.resetWith c) [])

/-- Settles O38: the machine begins at the values of R127's table, whatever the configuration. -/
theorem invariantsAtReset : Obligations.InvariantsAtReset := ⟨resetWith_inv Config.cfg, resetWith_inv⟩

/-! ### Each invariant over an instruction

The writers of its registers are its cases; under any other answer it speaks of the same values. -/

variable {i : Instr} {s t : State}

theorem stepToward_le {a d : BitVec 7} {b : Nat} (ha : a.toNat ≤ b) (hd : d.toNat ≤ b) :
    (stepToward a d).toNat ≤ b := by
  rw [stepToward_toNat]
  split
  next => omega
  next =>
    split
    next => omega
    next => exact ha

theorem exec_keeps_speedRange (hs : s.SpeedRange) (h : exec i s = .next t) : t.SpeedRange := by
  obtain ⟨hdesired, hactual⟩ := hs
  cases exec_answer h with
  | setd hle => exact ⟨(speed_toNat _ hle).trans_le hle, hactual⟩
  | ramp | tickFires => exact ⟨hdesired, stepToward_le hactual hdesired⟩
  | _ => exact ⟨hdesired, hactual⟩

theorem push_filterIndices (v : Word) (hs : s.FilterIndices) : (s.push v).FilterIndices := by
  obtain ⟨hle, hwidx⟩ := hs
  rw [State.FilterIndices, push_fill_toNat, push_widx_toNat]
  omega

theorem exec_keeps_filterIndices (hs : s.FilterIndices) (h : exec i s = .next t) : t.FilterIndices := by
  cases exec_answer h with
  | @fpush v => exact push_filterIndices (immValue v) hs
  | @sample p r => exact push_filterIndices r hs
  | _ => exact hs

/-- The slot a push writes is valid after it, so the slots that are not valid are as they were. -/
theorem push_unusedSlotsZero (v : Word) (hidx : s.FilterIndices) (hs : s.UnusedSlotsZero) :
    (s.push v).UnusedSlotsZero := by
  obtain ⟨hle, hwidx⟩ := hidx
  intro j hj
  have hlt := j.isLt
  rw [push_fill_toNat] at hj
  rw [push_hist_get, if_neg (by omega)]
  exact hs j (by omega)

theorem exec_keeps_unusedSlotsZero (hidx : s.FilterIndices) (hs : s.UnusedSlotsZero) (h : exec i s = .next t) :
    t.UnusedSlotsZero := by
  cases exec_answer h with
  | @fpush v => exact push_unusedSlotsZero (immValue v) hidx hs
  | @sample p r => exact push_unusedSlotsZero r hidx hs
  | _ => exact hs

/-- R42's values are the multiples of 10 up to 40. -/
theorem prescaler_iff : s.Prescaler ↔ s.rampTimer.toNat ≤ 40 ∧ s.rampTimer.toNat % 10 = 0 := by
  simp only [State.Prescaler, List.mem_cons, List.not_mem_nil, or_false]
  omega

/-- The sum a waiting TICK writes fits RAMP_TIMER. -/
theorem tick_sum_toNat (hlt : s.rampTimer.toNat + 10 < 50) :
    (BitVec.ofNat 8 (s.rampTimer.toNat + 10)).toNat = s.rampTimer.toNat + 10 := by
  rw [BitVec.toNat_ofNat]
  omega

theorem exec_keeps_prescaler (hs : s.Prescaler) (h : exec i s = .next t) : t.Prescaler := by
  cases exec_answer h with
  | tickFires => exact prescaler_iff.mpr ⟨Nat.zero_le 40, rfl⟩
  | tickWaits hlt =>
    obtain ⟨-, hmod⟩ := prescaler_iff.mp hs
    rw [prescaler_iff, State.respond_rampTimer, State.writeTimer_rampTimer, tick_sum_toNat hlt]
    omega
  | _ => exact hs

/-- Within R40 the clamp of R88 changes nothing, so a ramp step programs the duty of the new ACTUAL. -/
theorem rampStep_dutyConsistent (hspeed : s.SpeedRange) : s.rampStep.DutyConsistent := by
  obtain ⟨hdesired, hactual⟩ := hspeed
  have hle := stepToward_le hactual hdesired
  rw [State.DutyConsistent, State.rampStep_duty, dutyOf_toNat, Nat.min_eq_left hle]
  rfl

theorem exec_keeps_dutyConsistent (hspeed : s.SpeedRange) (hs : s.DutyConsistent) (h : exec i s = .next t) :
    t.DutyConsistent := by
  cases exec_answer h with
  | ramp | tickFires => exact rampStep_dutyConsistent (s := s) hspeed
  | _ => exact hs

/-- A push of a bounded value leaves bounded slots, and so a bounded average. -/
theorem pushAverage_valuesBounded {v : Word} (hv : v.toNat ≤ 1006632900) (hs : s.ValuesBounded) :
    (s.pushAverage v).ValuesBounded := by
  obtain ⟨hest, -, hhist, hduty⟩ := hs
  have hslots : ∀ j : Fin 4, (s.push v).hist[j.val].toNat ≤ 1006632900 := by
    intro j
    rw [push_hist_get]
    split
    next => exact hv
    next => exact hhist j
  have hvalid : ∀ w ∈ (s.push v).validEntries, w.toNat ≤ 1006632900 := by
    intro w hw
    obtain ⟨k, hk, rfl⟩ := Vector.mem_iff_getElem.mp (Vector.mem_toList_iff.mp (List.mem_of_mem_take hw))
    exact hslots ⟨k, hk⟩
  have hfill := push_fill_toNat s v
  exact ⟨hest, (pushAverage_rpmAvg_toNat s v).trans_le (average_le _ _ (by omega) hvalid), hslots, hduty⟩

/-- An estimate of a 24-bit count is in R44's bound. -/
theorem toNat_le_of_estimate {c : Cfg} {p : Imm} {r : Word} (hr : r.toNat = p.toNat * 60 / c.ppr.toNat) :
    r.toNat ≤ 1006632900 :=
  hr.trans_le (estimate_le c p)

theorem writeEst_valuesBounded {r : Word} (hr : r.toNat ≤ 1006632900) (hs : s.ValuesBounded) :
    (s.writeEst r).ValuesBounded := by
  obtain ⟨-, hrest⟩ := hs
  exact ⟨hr, hrest⟩

theorem rampStep_valuesBounded (hs : s.ValuesBounded) : s.rampStep.ValuesBounded := by
  obtain ⟨hest, havg, hhist, -⟩ := hs
  exact ⟨hest, havg, hhist, dutyOf_toNat_le s.cfg _⟩

theorem exec_keeps_valuesBounded (hs : s.ValuesBounded) (h : exec i s = .next t) : t.ValuesBounded := by
  cases exec_answer h with
  | ramp | tickFires => exact rampStep_valuesBounded (s := s) hs
  | est hr => exact writeEst_valuesBounded (s := s) (toNat_le_of_estimate hr) hs
  | @fpush v =>
    have hv := v.isLt
    exact pushAverage_valuesBounded (v := immValue v) (by rw [immValue_toNat]; omega) hs
  | @sample p r hr =>
    have hle := toNat_le_of_estimate hr
    exact pushAverage_valuesBounded (s := s.writeEst r) hle (writeEst_valuesBounded hle hs)
  | _ => exact hs

/-! ### Every step -/

theorem exec_keeps_inv (hs : s.Inv) (h : exec i s = .next t) : t.Inv := by
  obtain ⟨hspeed, hidx, hslots, htimer, hduty, hbounds⟩ := hs
  exact ⟨exec_keeps_speedRange hspeed h, exec_keeps_filterIndices hidx h, exec_keeps_unusedSlotsZero hidx hslots h,
    exec_keeps_prescaler htimer h, exec_keeps_dutyConsistent hspeed hduty h, exec_keeps_valuesBounded hbounds h⟩

/-- Settles O39: a command keeps the invariants, a reset brings them about, and the rest writes no register of theirs. -/
theorem stepKeepsInvariants : Obligations.StepKeepsInvariants := by
  intro s t hs h
  rcases step_answer h with rfl | ⟨rest, rfl⟩ | ⟨cw, rest, ⟨i, -, hexec⟩ | ⟨r, -, rfl⟩⟩
  · exact hs
  · exact inv_of_atReset (resetBlock_atReset s rest)
  · exact exec_keeps_inv (s := s.accept rest) hs hexec
  · exact hs

end Sys2Proof.Machine
end

section
/-! PROOFS. What the commands read: RD changes nothing it reads, and neither data path reads the other's registers
(20_memory.md R51; 00_scope.md R3). -/

namespace Sys2Proof.Machine

/-! ### RD -/

/-- Settles O41: RD only responds, and no instruction reads the result that stands before it. -/
theorem readIsIdempotent : Obligations.ReadIsIdempotent := by
  intro sel s hsel
  obtain ⟨r, hr⟩ := selectorReg_isSome sel hsel
  have hexec := exec_rd sel r s hr
  exact ⟨_, hexec, (exec_respond (.rd sel) s .ok (s.readReg r)).trans hexec, ⟨rfl, rfl, rfl, rfl, rfl, rfl⟩,
    ⟨rfl, rfl, rfl, rfl, rfl⟩, ⟨rfl, rfl⟩, rfl⟩

/-! ### The estimator and the filter -/

variable {i : Instr} {s s' t t' : State}

theorem average_congr (hhist : s.hist = s'.hist) (hfill : s.fill = s'.fill) : s.average = s'.average := by
  simp only [State.average, State.validEntries, hhist, hfill]

theorem pushAverage_sameFilter (v : Word) (h : s.SameFilter s') :
    (s.pushAverage v).SameFilter (s'.pushAverage v) := by
  obtain ⟨hest, -, hhist, hwidx, hfill⟩ := h
  have hhist' : (s.push v).hist = (s'.push v).hist := by simp only [State.push_hist, hhist, hwidx]
  have hfill' : (s.push v).fill = (s'.push v).fill := by simp only [State.push_fill, hfill]
  exact ⟨hest, congrArg (BitVec.ofNat 32) (average_congr hhist' hfill'), hhist', congrArg (· + 1#2) hwidx, hfill'⟩

theorem writeEst_sameFilter (r : Word) (h : s.SameFilter s') : (s.writeEst r).SameFilter (s'.writeEst r) := by
  obtain ⟨-, hrest⟩ := h
  exact ⟨rfl, hrest⟩

/-- Blocks with one configuration make one estimate of a count. -/
theorem estimate_unique {p : Imm} {r r' : Word} (hcfg : s.cfg = s'.cfg) (hr : r.toNat = p.toNat * 60 / s.cfg.ppr.toNat)
    (hr' : r'.toNat = p.toNat * 60 / s'.cfg.ppr.toNat) : r = r' :=
  BitVec.eq_of_toNat_eq (by rw [hr, hr', hcfg])

theorem exec_pulse_sameFilter (hcfg : s.cfg = s'.cfg) (hs : s.SameFilter s') (h : exec i s = .next t)
    (h' : exec i s' = .next t') (hi : i.mnemonic ∈ ["EST", "FPUSH", "SAMPLE"]) :
    t.SameFilter t' ∧ t.rcode = t'.rcode ∧ t.rdata = t'.rdata := by
  cases exec_answer h with
  | @est p r hr =>
    cases exec_answer h' with
    | est hr' =>
      obtain rfl := estimate_unique hcfg hr hr'
      exact ⟨writeEst_sameFilter (s := s) (s' := s') r hs, rfl, rfl⟩
  | @fpush v =>
    cases exec_answer h' with
    | fpush =>
      have hpush := pushAverage_sameFilter (immValue v) hs
      have ⟨_, havg, _⟩ := hpush
      exact ⟨hpush, rfl, havg⟩
  | @sample p r hr =>
    cases exec_answer h' with
    | sample hr' =>
      obtain rfl := estimate_unique hcfg hr hr'
      have hpush := pushAverage_sameFilter r (writeEst_sameFilter r hs)
      have ⟨_, havg, _⟩ := hpush
      exact ⟨hpush, rfl, havg⟩
  | _ => exact absurd hi (by simp [Instr.mnemonic])

/-- A command of neither the estimator nor the filter leaves both states' registers as they were. -/
theorem exec_other_sameFilter (hs : s.SameFilter s') (h : exec i s = .next t) (h' : exec i s' = .next t')
    (hi : i.mnemonic ∉ ["EST", "FPUSH", "SAMPLE"]) : t.SameFilter t' := by
  obtain ⟨hest, hfpush, hsample⟩ : i.mnemonic ≠ "EST" ∧ i.mnemonic ≠ "FPUSH" ∧ i.mnemonic ≠ "SAMPLE" := by
    simpa using hi
  have hiEst : i.mnemonic ∉ ["EST", "SAMPLE"] := by simp [hest, hsample]
  have hiPush : i.mnemonic ∉ ["FPUSH", "SAMPLE"] := by simp [hfpush, hsample]
  obtain ⟨havg, hhist, hwidx, hfill⟩ := exec_keeps_filter h hiPush
  obtain ⟨havg', hhist', hwidx', hfill'⟩ := exec_keeps_filter h' hiPush
  rw [State.SameFilter, exec_keeps_rpmEst h hiEst, exec_keeps_rpmEst h' hiEst, havg, hhist, hwidx, hfill, havg', hhist',
    hwidx', hfill']
  exact hs

/-! ### The ramp -/

theorem rampStep_sameRamp (hcfg : s.cfg = s'.cfg) (h : s.SameRamp s') : s.rampStep.SameRamp s'.rampStep := by
  obtain ⟨hdesired, hactual, -, htimer, -, hevents⟩ := h
  simp [State.SameRamp, hcfg, hdesired, hactual, htimer, hevents]

theorem writeTimer_sameRamp (r : BitVec 8) (h : s.SameRamp s') : (s.writeTimer r).SameRamp (s'.writeTimer r) := by
  obtain ⟨hdesired, hactual, hduty, -, houtputs⟩ := h
  exact ⟨hdesired, hactual, hduty, rfl, houtputs⟩

theorem motorWord_congr (f : Bool) (h : s.SameRamp s') : s.motorWord f = s'.motorWord f := by
  obtain ⟨-, hactual, hduty, -⟩ := h
  simp only [State.motorWord, hactual, hduty]

theorem exec_motor_sameRamp (hcfg : s.cfg = s'.cfg) (hs : s.SameRamp s') (h : exec i s = .next t)
    (h' : exec i s' = .next t') (hi : i.mnemonic ∈ ["SETD", "RAMP", "TICK"]) :
    t.SameRamp t' ∧ t.rcode = t'.rcode ∧ t.rdata = t'.rdata := by
  have ⟨hdesired, hactual, hduty, htimer, houtputs⟩ := hs
  cases exec_answer h with
  | setd hle =>
    cases exec_answer h' with
    | setd => exact ⟨⟨rfl, hactual, hduty, htimer, houtputs⟩, rfl, rfl⟩
    | setdRange hgt => omega
  | setdRange hgt =>
    cases exec_answer h' with
    | setd hle => omega
    | setdRange => exact ⟨hs, rfl, congrArg (BitVec.setWidth 32) hdesired⟩
  | ramp =>
    cases exec_answer h' with
    | ramp =>
      have hstep := rampStep_sameRamp hcfg hs
      exact ⟨hstep, rfl, motorWord_congr true hstep⟩
  | tickFires hge =>
    cases exec_answer h' with
    | tickFires =>
      have hstep := rampStep_sameRamp (s := s.writeTimer 0) (s' := s'.writeTimer 0) hcfg (writeTimer_sameRamp 0 hs)
      exact ⟨hstep, rfl, motorWord_congr true hstep⟩
    | tickWaits hlt =>
      rw [htimer] at hge
      omega
  | tickWaits hlt =>
    cases exec_answer h' with
    | tickFires hge =>
      rw [htimer] at hlt
      omega
    | tickWaits =>
      rw [htimer]
      have hwrite := writeTimer_sameRamp (BitVec.ofNat 8 (s'.rampTimer.toNat + 10)) hs
      exact ⟨hwrite, rfl, motorWord_congr false hwrite⟩
  | _ => exact absurd hi (by simp [Instr.mnemonic])

/-- A command of another kind leaves both states' ramp registers as they were. -/
theorem exec_other_sameRamp (hs : s.SameRamp s') (h : exec i s = .next t) (h' : exec i s' = .next t')
    (hi : i.mnemonic ∉ ["SETD", "RAMP", "TICK"]) : t.SameRamp t' := by
  obtain ⟨hsetd, hramp, htick⟩ : i.mnemonic ≠ "SETD" ∧ i.mnemonic ≠ "RAMP" ∧ i.mnemonic ≠ "TICK" := by
    simpa using hi
  have hiRamp : i.mnemonic ∉ ["RAMP", "TICK"] := by simp [hramp, htick]
  obtain ⟨hactual, hduty, hactWe, hevents⟩ := exec_keeps_actuator h hiRamp
  obtain ⟨hactual', hduty', hactWe', hevents'⟩ := exec_keeps_actuator h' hiRamp
  rw [State.SameRamp, exec_keeps_desired h hsetd, exec_keeps_desired h' hsetd, exec_keeps_rampTimer h htick,
    exec_keeps_rampTimer h' htick, hactual, hduty, hactWe, hevents, hactual', hduty', hactWe', hevents']
  exact hs

/-! ### Both paths -/

/-- Settles O42: a path's own commands compute from its registers, and every other command leaves them. -/
theorem pathsShareNoState : Obligations.PathsShareNoState := by
  intro i s s' hcfg
  obtain ⟨t, h, -⟩ := exec_exists_answer i s
  obtain ⟨t', h', -⟩ := exec_exists_answer i s'
  refine ⟨t, t', h, h', fun hs => ?filter, fun hs => ?ramp⟩
  case filter =>
    by_cases hi : i.mnemonic ∈ ["EST", "FPUSH", "SAMPLE"]
    · obtain ⟨hsame, hresult⟩ := exec_pulse_sameFilter hcfg hs h h' hi
      exact ⟨hsame, fun _ => hresult⟩
    · exact ⟨exec_other_sameFilter hs h h' hi, fun hmem => absurd hmem hi⟩
  case ramp =>
    by_cases hi : i.mnemonic ∈ ["SETD", "RAMP", "TICK"]
    · obtain ⟨hsame, hresult⟩ := exec_motor_sameRamp hcfg hs h h' hi
      exact ⟨hsame, fun _ => hresult⟩
    · exact ⟨exec_other_sameRamp hs h h' hi, fun hmem => absurd hmem hi⟩

end Sys2Proof.Machine
end

section
/-! PROOFS. Runs: the commands a host presents are taken one by one, and what several of them do together
(10_state.md R18, 43_ramp.md R92, 70_reset_and_hazards.md R137, 60_exceptions.md R115 to R119). -/

namespace Sys2Proof.Machine

/-! ### Running presented commands -/

/-- The commands, each with a legal word, take the block from one state to another, one step each: the strobe of the
step before is over when a command's meaning runs (log 6). -/
inductive Runs : List Instr → State → State → Prop
  | nil (s : State) : Runs [] s s
  | cons {i : Instr} {is : List Instr} {s t u : State} (hwf : i.wellFormed = true)
      (h : exec i (s.accept s.pending) = .next t) (hrest : Runs is t u) : Runs (i :: is) s u

/-- No instruction reads the stream, so more may be presented behind it. -/
theorem exec_present (is : List Instr) {i : Instr} {s t : State} (h : exec i s = .next t) :
    exec i (s.present is) = .next (t.present is) := by
  cases exec_answer h with
  | nop => exact exec_nop _
  | setd hle => exact exec_setd_inRange _ _ hle
  | setdRange hgt => exact exec_setd_outOfRange _ _ hgt
  | ramp => exact exec_ramp _
  | tickFires hge => exact exec_tick_fires _ hge
  | tickWaits hlt => exact exec_tick_waits _ hlt
  | @est p r hr =>
    obtain rfl : r = _ := BitVec.eq_of_toNat_eq (hr.trans (estimate_toNat s.cfg p).symm)
    exact exec_est _ _
  | fpush => exact exec_fpush _ _
  | @sample p r hr =>
    obtain rfl : r = _ := BitVec.eq_of_toNat_eq (hr.trans (estimate_toNat s.cfg p).symm)
    exact exec_sample _ _
  | @rd sel r hr =>
    rw [exec_rd sel r _ hr]
    cases r
    all_goals rfl
  | rdReserved => exact exec_rd_reserved _ _ rfl
  | clrst => exact exec_clrst _

/-- The step on the first of the presented commands runs it and leaves the others presented. -/
theorem step_present_cons {i : Instr} {s t : State} (is : List Instr) (hwf : i.wellFormed = true)
    (h : exec i (s.accept s.pending) = .next t) : step (s.present (i :: is)) = .next (t.present is) :=
  (step_of_decode_ok rfl (decode_encode i hwf)).trans (exec_present is h)

theorem core_run_succ {M : Host.Core} {s t : M.State} (n : Nat) (h : M.step s = .next t) :
    M.run (n + 1) s = M.run n t := by
  simp only [Host.Core.run, h]

theorem run_succ_of_step {s t : State} (n : Nat) (h : step s = .next t) : s.run (n + 1) = t.run n :=
  core_run_succ (M := Sys2Proof.core) n h

/-- The block runs presented commands in as many steps as there are. -/
theorem Runs.run_eq {is : List Instr} {s t : State} (h : Runs is s t) : (s.present is).run is.length = .next t := by
  induction h with
  | nil s => rfl
  | cons hwf hexec _ ih => exact (run_succ_of_step _ (step_present_cons _ hwf hexec)).trans ih

theorem Runs.append {is js : List Instr} {s t u : State} (h : Runs is s t) (h' : Runs js t u) : Runs (is ++ js) s u := by
  induction h with
  | nil s => exact h'
  | cons hwf hexec _ ih => exact .cons hwf hexec (ih h')

theorem Runs.single {i : Instr} {s t : State} (hwf : i.wellFormed = true) (h : exec i (s.accept s.pending) = .next t) :
    Runs [i] s t :=
  .cons hwf h (.nil t)

/-- What taking a command leaves, and each of the commands leaves, a run of them leaves. -/
theorem Runs.keeps {α : Type} (f : State → α) (haccept : ∀ s : State, f (s.accept s.pending) = f s) {is : List Instr}
    {s t : State} (h : Runs is s t)
    (hkeeps : ∀ i ∈ is, i.wellFormed = true → ∀ u v, exec i u = .next v → f v = f u) : f t = f s := by
  induction h with
  | nil s => rfl
  | @cons i is s t u hwf hexec _ ih =>
    rw [ih fun j hj => hkeeps j (List.mem_cons_of_mem i hj), hkeeps i List.mem_cons_self hwf _ _ hexec, haccept]

theorem Runs.pending {is : List Instr} {s t : State} (h : Runs is s t) : t.pending = s.pending :=
  h.keeps State.pending (fun _ => rfl) fun _ _ _ _ _ => exec_next_keeps_pending

theorem Runs.cfg {is : List Instr} {s t : State} (h : Runs is s t) : t.cfg = s.cfg :=
  h.keeps State.cfg (fun _ => rfl) fun _ _ _ _ _ => exec_keeps_cfg

/-! ### Several ramp steps -/

/-- A speed after `k` ramp steps from `a` toward `d`, which it does not pass (R92). -/
def movedToward (a d k : Nat) : Nat := if a ≤ d then min d (a + k) else max d (a - k)

theorem movedToward_zero (a d : Nat) : movedToward a d 0 = a := by
  unfold movedToward
  split
  next => omega
  next => omega

theorem movedToward_stepToward (a d : BitVec 7) (k : Nat) :
    movedToward (stepToward a d).toNat d.toNat k = movedToward a.toNat d.toNat (k + 1) := by
  rw [stepToward_toNat]
  unfold movedToward
  split_ifs
  all_goals omega

/-- The target is reached with as many ramp steps as the distance has units, and not before. -/
theorem movedToward_eq_iff (a d k : Nat) : movedToward a d k = d ↔ (d - a) + (a - d) ≤ k := by
  unfold movedToward
  split
  next => omega
  next => omega

theorem runs_ramp (n : Nat) (s : State) : ∃ t, Runs (List.replicate n .ramp) s t ∧ t.desired = s.desired ∧
    t.actual.toNat = movedToward s.actual.toNat s.desired.toNat n := by
  induction n generalizing s with
  | zero => exact ⟨s, .nil s, rfl, (movedToward_zero _ _).symm⟩
  | succ n ih =>
    obtain ⟨t, hruns, hdesired, hactual⟩ := ih _
    exact ⟨t, .cons rfl (exec_ramp _) hruns, hdesired, hactual.trans (movedToward_stepToward s.actual s.desired n)⟩

/-- Settles O43: each RAMP is one ramp step toward the same DESIRED. -/
theorem rampConverges : Obligations.RampConverges := by
  intro n s
  obtain ⟨t, hruns, hdesired, hactual⟩ := runs_ramp n s
  have hrun := hruns.run_eq
  rw [List.length_replicate] at hrun
  exact ⟨t, hrun, hdesired, hruns.pending, hactual⟩

/-! ### Several ticks -/

/-- From a prescaler value of R42, `n` TICKs run a ramp step at every fifth one, counted from the timer's last zero. -/
theorem runs_tick (n : Nat) (s : State) (hs : s.Prescaler) : ∃ t, Runs (List.replicate n .tick) s t ∧
    t.desired = s.desired ∧
    t.actual.toNat = movedToward s.actual.toNat s.desired.toNat ((s.rampTimer.toNat / 10 + n) / 5) := by
  induction n generalizing s with
  | zero =>
    obtain ⟨hle, -⟩ := prescaler_iff.mp hs
    have hnone : (s.rampTimer.toNat / 10 + 0) / 5 = 0 := by omega
    rw [hnone]
    exact ⟨s, .nil s, rfl, (movedToward_zero _ _).symm⟩
  | succ n ih =>
    obtain ⟨hle, -⟩ := prescaler_iff.mp hs
    rcases Nat.lt_or_ge (s.rampTimer.toNat + 10) 50 with hlt | hge
    · have hexec := exec_tick_waits (s.accept s.pending) hlt
      obtain ⟨t, hruns, hdesired, hactual⟩ := ih _ (exec_keeps_prescaler (s := s.accept s.pending) hs hexec)
      refine ⟨t, .cons rfl hexec hruns, hdesired, hactual.trans ?_⟩
      have hcount : ((s.rampTimer.toNat + 10) / 10 + n) / 5 = (s.rampTimer.toNat / 10 + (n + 1)) / 5 := by omega
      rw [← hcount, ← tick_sum_toNat hlt]
      rfl
    · have hexec := exec_tick_fires (s.accept s.pending) hge
      obtain ⟨t, hruns, hdesired, hactual⟩ := ih _ (exec_keeps_prescaler (s := s.accept s.pending) hs hexec)
      refine ⟨t, .cons rfl hexec hruns, hdesired, hactual.trans ?_⟩
      have hcount : (0 / 10 + n) / 5 + 1 = (s.rampTimer.toNat / 10 + (n + 1)) / 5 := by omega
      rw [← hcount]
      exact movedToward_stepToward s.actual s.desired _

/-- Settles O44: the distance is covered when as many ramp steps have run as it has units. -/
theorem timeToTarget : Obligations.TimeToTarget := by
  intro n s hs hne
  obtain ⟨t, hruns, hdesired, hactual⟩ := runs_tick n s hs
  have hrun := hruns.run_eq
  rw [List.length_replicate] at hrun
  refine ⟨t, hrun, hdesired, ?_⟩
  have hdist : s.actual.toNat ≠ s.desired.toNat := fun h => hne (BitVec.eq_of_toNat_eq h)
  obtain ⟨hle, hmod⟩ := prescaler_iff.mp hs
  rw [hdesired, ← BitVec.toNat_inj, hactual, movedToward_eq_iff]
  omega

/-! ### One iteration of a conforming host -/

/-- The SETD of an iteration, if it has one. -/
def HostIteration.setdCommands (it : HostIteration) : List Instr := it.setd.toList.map Instr.setd

/-- The SAMPLE of an iteration and its telemetry reads, if it has one. -/
def HostIteration.sampleCommands (it : HostIteration) : List Instr :=
  match it.sample with
  | none => []
  | some (p, readAvg) => [.sample p, .rd 1] ++ (if readAvg then [.rd 4] else [])

theorem HostIteration.commands_eq (it : HostIteration) :
    it.commands = it.setdCommands ++ it.sampleCommands ++ [.tick] := rfl

/-- What commands other than RAMP, TICK and CLRST leave when they raise nothing: the motor, the prescaler, the events and
the sticky bits. -/
structure MotorKept (s t : State) : Prop where
  actual : t.actual = s.actual
  rampTimer : t.rampTimer = s.rampTimer
  events : t.events = s.events
  sticky : s.SameSticky t

theorem MotorKept.trans {s t u : State} (h : MotorKept s t) (h' : MotorKept t u) : MotorKept s u where
  actual := h'.actual.trans h.actual
  rampTimer := h'.rampTimer.trans h.rampTimer
  events := h'.events.trans h.events
  sticky := ⟨h.sticky.1.trans h'.sticky.1, h.sticky.2.trans h'.sticky.2⟩

theorem sameFilter_trans {s t u : State} (h : s.SameFilter t) (h' : t.SameFilter u) : s.SameFilter u := by
  obtain ⟨hest, havg, hhist, hwidx, hfill⟩ := h
  rwa [State.SameFilter, hest, havg, hhist, hwidx, hfill]

/-- The target of an iteration that starts in `s`: its SETD's value, or DESIRED as it was. -/
def HostIteration.target (it : HostIteration) (s : State) : Nat := it.setd.elim s.desired.toNat BitVec.toNat

/-- What an iteration makes of the estimator and the filter: its SAMPLE's effect, or nothing. -/
def HostIteration.Measures (it : HostIteration) (s t : State) : Prop :=
  it.sample.elim (s.SameFilter t) fun q =>
    t.rpmEst.toNat = q.1.toNat * 60 / s.cfg.ppr.toNat ∧ t.fill.toNat = min (s.fill.toNat + 1) 4

theorem runs_setdCommands {it : HostIteration} (hconf : it.conforms = true) (s : State) :
    ∃ t, Runs it.setdCommands s t ∧ t.desired.toNat = it.target s ∧ MotorKept s t ∧ s.SameFilter t := by
  unfold HostIteration.conforms at hconf
  unfold HostIteration.setdCommands HostIteration.target
  cases hsetd : it.setd with
  | none => exact ⟨s, .nil s, rfl, ⟨rfl, rfl, rfl, rfl, rfl⟩, rfl, rfl, rfl, rfl, rfl⟩
  | some v =>
    have hle : v.toNat ≤ 100 := by simpa [hsetd] using hconf
    exact ⟨_, .single rfl (exec_setd_inRange v _ hle), speed_toNat v hle, ⟨rfl, rfl, rfl, rfl, rfl⟩,
      rfl, rfl, rfl, rfl, rfl⟩

/-- RD writes the result only. -/
theorem runs_rd {sel : Selector} {r : Reg} (hwf : (Instr.rd sel).wellFormed = true) (hr : selectorReg sel = some r)
    (s : State) : ∃ t, Runs [.rd sel] s t ∧ t.desired = s.desired ∧ MotorKept s t ∧ s.SameFilter t :=
  ⟨_, .single hwf (exec_rd sel r _ hr), rfl, ⟨rfl, rfl, rfl, rfl, rfl⟩, rfl, rfl, rfl, rfl, rfl⟩

theorem runs_telemetry (readAvg : Bool) (s : State) :
    ∃ t, Runs ([.rd 1] ++ if readAvg then [.rd 4] else []) s t ∧ t.desired = s.desired ∧ MotorKept s t ∧
      s.SameFilter t := by
  obtain ⟨t, hruns, hdesired, hmotor, hfilter⟩ := runs_rd (sel := 1) (r := .actual) rfl rfl s
  cases readAvg with
  | false => exact ⟨t, hruns, hdesired, hmotor, hfilter⟩
  | true =>
    obtain ⟨u, hruns', hdesired', hmotor', hfilter'⟩ := runs_rd (sel := 4) (r := .rpmAvg) rfl rfl t
    exact ⟨u, hruns.append hruns', hdesired'.trans hdesired, hmotor.trans hmotor', sameFilter_trans hfilter hfilter'⟩

theorem runs_sampleCommands (it : HostIteration) (s : State) :
    ∃ t, Runs it.sampleCommands s t ∧ t.desired = s.desired ∧ MotorKept s t ∧ it.Measures s t := by
  unfold HostIteration.sampleCommands HostIteration.Measures
  match it.sample with
  | none => exact ⟨s, .nil s, rfl, ⟨rfl, rfl, rfl, rfl, rfl⟩, rfl, rfl, rfl, rfl, rfl⟩
  | some (p, readAvg) =>
    have hexec := exec_sample p (s.accept s.pending)
    obtain ⟨t, hruns, hdesired, ⟨hactual, htimer, hevents, hsticky⟩, hest, -, -, -, hfill⟩ := runs_telemetry readAvg _
    refine ⟨t, .cons rfl hexec hruns, hdesired, ⟨hactual, htimer, hevents, hsticky⟩, ?_, ?_⟩
    · rw [← hest]
      exact estimate_toNat s.cfg p
    · rw [← hfill]
      exact push_fill_toNat s (BitVec.ofNat 32 (estimate s.cfg p.toNat))

/-- What an iteration measures depends on the configuration, the estimator and the filter only. -/
theorem HostIteration.Measures.congr {it : HostIteration} {s s' t t' : State} (h : it.Measures s' t)
    (hcfg : s'.cfg = s.cfg) (hs : s.SameFilter s') (ht : t.SameFilter t') : it.Measures s t' := by
  unfold HostIteration.Measures at h ⊢
  cases hsample : it.sample with
  | none =>
    rw [hsample] at h
    exact sameFilter_trans hs (sameFilter_trans h ht)
  | some q =>
    rw [hsample] at h
    obtain ⟨-, -, -, -, hfill⟩ := hs
    obtain ⟨hest', -, -, -, hfill'⟩ := ht
    rw [← hest', ← hfill', hfill, ← hcfg]
    exact h

/-- One TICK from a prescaler value of R42. -/
theorem runs_one_tick {s : State} (hs : s.Prescaler) : ∃ t, Runs [.tick] s t ∧ t.rcode = .ok ∧
    t.desired = s.desired ∧ s.SameSticky t ∧ s.SameFilter t ∧
    (if s.rampTimer.toNat = 40 then
      t.rampTimer = 0 ∧ (t.actual.toNat : Int) = towards s.actual.toNat t.desired.toNat ∧ t.events = s.events ++ [t.duty]
    else t.rampTimer.toNat = s.rampTimer.toNat + 10 ∧ t.actual = s.actual ∧ t.events = s.events) := by
  obtain ⟨hle, hmod⟩ := prescaler_iff.mp hs
  split
  next h40 =>
    have hexec := exec_tick_fires (s.accept s.pending) (by rw [State.accept_rampTimer]; omega)
    exact ⟨_, .single rfl hexec, rfl, rfl, ⟨rfl, rfl⟩, ⟨rfl, rfl, rfl, rfl, rfl⟩, rfl,
      stepToward_toInt s.actual s.desired, rfl⟩
  next h40 =>
    have hlt : s.rampTimer.toNat + 10 < 50 := by omega
    exact ⟨_, .single rfl (exec_tick_waits (s.accept s.pending) hlt), rfl, rfl, ⟨rfl, rfl⟩, ⟨rfl, rfl, rfl, rfl, rfl⟩,
      tick_sum_toNat hlt, rfl, rfl⟩

/-- Settles O47: the three parts of an iteration run one after the other, SETD first, and TICK reads what SETD left. -/
theorem conformingIteration : Obligations.ConformingIteration := by
  intro it s hconf hs
  obtain ⟨a, hrunsA, hdesiredA, hmotorA, hfilterA⟩ := runs_setdCommands hconf s
  obtain ⟨b, hrunsB, hdesiredB, hmotorB, hmeasures⟩ := runs_sampleCommands it a
  obtain ⟨hactual, htimer, hevents, hrerr, hill⟩ := hmotorA.trans hmotorB
  have hsB : b.Prescaler := by rwa [State.Prescaler, htimer]
  obtain ⟨t, hrunsT, hrcode, hdesiredT, hstickyT, hfilterT, htick⟩ := runs_one_tick hsB
  have hruns : Runs it.commands s t := by
    rw [it.commands_eq]
    exact (hrunsA.append hrunsB).append hrunsT
  rw [htimer, hactual, hevents] at htick
  refine ⟨t, hruns.run_eq, hruns.pending, hruns.cfg, ?sticky, hrcode, ?desired, htick, ?sample⟩
  case sticky =>
    obtain ⟨hrerrT, hillT⟩ := hstickyT
    exact ⟨hrerr.trans hrerrT, hill.trans hillT⟩
  case desired =>
    rw [hdesiredT, hdesiredB, hdesiredA, HostIteration.target]
    cases it.setd with
    | none => rfl
    | some v => rfl
  case sample =>
    replace hmeasures := hmeasures.congr hrunsA.cfg hfilterA hfilterT
    unfold HostIteration.Measures at hmeasures
    match hsample : it.sample with
    | none =>
      rw [hsample] at hmeasures
      exact hmeasures
    | some (p, readAvg) =>
      rw [hsample] at hmeasures
      exact hmeasures

end Sys2Proof.Machine
end
